-- ==== Sys2Proof/Word.lean ====
section
/-! DEFINITION. The value types of the KB424 that the manual treats as bits, the names of ports, pins and vectors,
and `Tab`, the table of a fixed number of like cells (a port's vectors, the 24 pins, the eleven fault kinds). -/

namespace Sys2Proof

/-- One byte of a frame, a result or the settings image (R201). -/
abbrev Byte := BitVec 8

/-- A master port, P0 to P3. -/
abbrev Port := Fin 4

/-- A hub pin, HP0 to HP23. -/
abbrev Pin := Fin 24

/-- A notification vector of a port, V0 to V7. -/
abbrev VecNo := Fin 8

/-- One of the 64 places an entry occupies (R37). -/
abbrev Slot := Fin 64

/-- A logical level at a pin: `true` is 1, `false` is 0 (00_scope.md, Durations and levels). -/
abbrev Level := Bool

/-- P0 to P3 in ascending order. -/
def allPorts : List Port := [0, 1, 2, 3]

/-- HP0 to HP23 in ascending order. -/
def allPins : List Pin :=
  [0, 1, 2, 3, 4, 5, 6, 7, 8, 9, 10, 11] ++ [12, 13, 14, 15, 16, 17, 18, 19, 20, 21, 22, 23]

/-- V0 to V7 in ascending order. -/
def allVecs : List VecNo := [0, 1, 2, 3, 4, 5, 6, 7]

/-- Slots 0 to 63 in ascending order. -/
def allSlots : List Slot := List.finRange 64

/-- A table of `n` cells, indexed by `Fin n`. -/
structure Tab (n : Nat) (α : Type) where
  cells : Vector α n
deriving DecidableEq, Repr

namespace Tab

variable {n : Nat} {α β : Type}

/-- The cell of a table at an index. -/
def get (t : Tab n α) (i : Fin n) : α := t.cells[i]

/-- The table with one cell replaced. -/
def set (t : Tab n α) (i : Fin n) (x : α) : Tab n α := ⟨t.cells.set i x⟩

/-- The table whose cell at `i` is `f i`. -/
def build (f : Fin n → α) : Tab n α := ⟨⟨⟨List.ofFn f⟩, by simp⟩⟩

/-- The table with one cell changed by a function of it. -/
def upd (t : Tab n α) (i : Fin n) (f : α → α) : Tab n α := t.set i (f (t.get i))

/-- The table with every cell changed by a function of it. -/
def map (f : α → β) (t : Tab n α) : Tab n β := build fun i => f (t.get i)

/-- The table whose cells are all `x`. -/
def fill (n : Nat) (x : α) : Tab n α := build fun _ => x

@[simp] theorem get_build (f : Fin n → α) (i : Fin n) : (build f).get i = f i := by
  simp [get, build]

@[simp] theorem get_fill (x : α) (i : Fin n) : (fill n x).get i = x := by
  simp [fill]

@[simp] theorem get_map (f : α → β) (t : Tab n α) (i : Fin n) : (t.map f).get i = f (t.get i) := by
  simp [map]

theorem get_set (t : Tab n α) (i j : Fin n) (x : α) :
    (t.set i x).get j = if i = j then x else t.get j := by
  simp [get, set, Vector.getElem_set, Fin.ext_iff]

@[simp] theorem get_set_self (t : Tab n α) (i : Fin n) (x : α) : (t.set i x).get i = x := by
  simp [get_set]

@[simp] theorem get_set_ne (t : Tab n α) {i j : Fin n} (x : α) (h : i ≠ j) :
    (t.set i x).get j = t.get j := by
  simp [get_set, h]

theorem get_upd (t : Tab n α) (i j : Fin n) (f : α → α) :
    (t.upd i f).get j = if i = j then f (t.get i) else t.get j := by
  simp [upd, get_set]

@[simp] theorem get_upd_self (t : Tab n α) (i : Fin n) (f : α → α) :
    (t.upd i f).get i = f (t.get i) := by
  simp [get_upd]

@[simp] theorem get_upd_ne (t : Tab n α) {i j : Fin n} (f : α → α) (h : i ≠ j) :
    (t.upd i f).get j = t.get j := by
  simp [get_upd, h]

/-- Two tables with equal cells are equal. -/
theorem ext_get {t u : Tab n α} (h : ∀ i, t.get i = u.get i) : t = u := by
  cases t with
  | mk a =>
    cases u with
    | mk b =>
      congr 1
      apply Vector.ext
      intro i hi
      simpa [get] using h ⟨i, hi⟩

end Tab

end Sys2Proof
end

