-- ==== Sys2Proof/Config.lean ====
section
/-! DEFINITION. The free values: what the manual leaves open for each occasion. Both are constants with no body, so that no
proof can lean on a value of them. Machine/Ops.lean applies each to the counter `choices` of State, which the step advances at
every draw (notes/assumptions/5.md). -/

namespace Sys2Proof

/-- At the n-th draw: which of two blocks' notices of one event is taken first (R9: the step notices "have no order among
them"; R29: at an UNLOCK the DISCIPLINE record is posted "independently of the FAULT record"). -/
opaque Config.firstOfTwo : Nat → Bool

/-- At the n-th draw: a number that picks one order of the RING_OVERFLOW occurrences which several rings report at one event
(R158: "in the order in which it takes them, and either may be first"). -/
opaque Config.orderOfMany : Nat → Nat

end Sys2Proof
end

