-- ==== Sys2Proof/Syntax.lean ====
section
/-! DEFINITION. The commands of the KB424, one constructor per row of spec/opcode_table.json, and the sentences' two edges.

A request command is the event at which a good request frame is taken at port `p` (R186); its `args` are the n argument bytes
of the frame, so that every refusal for a wrong length or an undefined code is the model's to give. An event command carries
what the hub senses from outside at that event (a level at a pin, the outcome of the physical verify of the store). -/

namespace Sys2Proof

/-- A change of a line to level 1 (RISE) or to level 0 (FALL). -/
inductive Edge where
  | rise
  | fall
deriving DecidableEq, Repr

/-- The edge that a change to `level` is. -/
def Edge.ofLevel (level : Level) : Edge := if level then .rise else .fall

/-- What comes from outside at a settings load: bit k of `levels` is the level on HPk (R106), and bit p of `begun` tells that CSn_p is
low in a frame whose command is still to come (R199). -/
structure LoadInputs where
  levels : BitVec 24
  begun : BitVec 4
deriving DecidableEq, Repr

/-- A rise of PRSTn_p: `begun` tells that CSn_p is low at it, in a frame whose command is still to come (R195). -/
structure LineRise where
  port : Port
  begun : Bool
deriving DecidableEq, Repr

inductive Instr where
  -- supply, reset lines and the settings load
  | powerOn
  | resetnFall
  | settingsLoad (seen : LoadInputs)
  | prstnFall (p : Port)
  -- events of the hub's own
  | advance
  | expiry
  /-- `change`: the change of REFIN; it is an active edge when it is the configured one (R16). -/
  | activeEdge (change : Edge)
  | miss
  /-- `level`: the level sensed at the advance that takes the event (R91). -/
  | transition (pin : Pin) (level : Level)
  | debounceWindowEnd (pin : Pin) (level : Level)
  | contentionCheck (pin : Pin) (level : Level)
  | leaseExpiry (p : Port)
  /-- `verified`: whether the image agrees with the snapshot at the completion (R179). -/
  | storeCompletion (verified : Bool)
  | holdNotice
  -- frames that carry no request, and RESULT READ
  /-- `bytes`: the whole bytes received, `trailing`: the bits after the last whole byte (R183). -/
  | badFrame (p : Port) (bytes : List Byte) (trailing : Nat)
  | unknownRequest (p : Port) (code : Byte) (args : List Byte)
  | resultRead (p : Port)
  -- requests
  | identify (p : Port) (args : List Byte)
  | portStatus (p : Port) (args : List Byte)
  | portReset (p : Port) (args : List Byte)
  | leaseSet (p : Port) (args : List Byte)
  | leaseRenew (p : Port) (args : List Byte)
  | timeRead (p : Port) (args : List Byte)
  | timeReadScaled (p : Port) (args : List Byte)
  | timeSet (p : Port) (args : List Byte)
  | refConfigure (p : Port) (args : List Byte)
  | disciplineProfile (p : Port) (args : List Byte)
  | disciplineStatus (p : Port) (args : List Byte)
  | scheduleAt (p : Port) (args : List Byte)
  | scheduleOnEdge (p : Port) (args : List Byte)
  | cancel (p : Port) (args : List Byte)
  | entryQuery (p : Port) (args : List Byte)
  | scheduleList (p : Port) (args : List Byte)
  | hold (p : Port) (args : List Byte)
  | resume (p : Port) (args : List Byte)
  | scheduleConfigure (p : Port) (args : List Byte)
  /-- `level`: the level on the pin named at the event; it becomes the confirmed level of a pin that becomes IN (R104). -/
  | pinConfigure (p : Port) (args : List Byte) (level : Level)
  | pinClaim (p : Port) (args : List Byte)
  | pinRelease (p : Port) (args : List Byte)
  | pinWrite (p : Port) (args : List Byte)
  | pinRead (p : Port) (args : List Byte)
  | subscribe (p : Port) (args : List Byte)
  | eventRead (p : Port) (args : List Byte)
  | ringConfigure (p : Port) (args : List Byte)
  | vectorConfigure (p : Port) (args : List Byte)
  | vectorAck (p : Port) (args : List Byte)
  | notifyControl (p : Port) (args : List Byte)
  | vectorRead (p : Port) (args : List Byte)
  | faultRead (p : Port) (args : List Byte)
  | faultClear (p : Port) (args : List Byte)
  | faultConfigure (p : Port) (args : List Byte)
  | faultRecordClear (p : Port) (args : List Byte)
  | settingsClaim (p : Port) (args : List Byte)
  | settingsRelease (p : Port) (args : List Byte)
  | portLimitsSet (p : Port) (args : List Byte)
  | settingsRead (p : Port) (args : List Byte)
  | storeWrite (p : Port) (args : List Byte)
  | storeFreeze (p : Port) (args : List Byte)
  | hubReset (p : Port) (args : List Byte)
  -- the other line events
  | prstnRise (rise : LineRise)
  | resetnRise
  | powerLoss
deriving DecidableEq, Repr

end Sys2Proof
end

