-- ==== Sys2Proof/Machine/Bytes.lean ====
section
/-! DEFINITION. Bytes: the byte order of every multi-byte value (R201), the field of an argument list, the CRC-8 of frames
(R184) and the CRC-16 of the settings image (R175), the judgement of a request frame (R184) and the request codes (R203). -/

namespace Sys2Proof.Machine

/-- The unsigned value of bytes sent most significant byte first (R201). -/
def be (bs : List Byte) : Nat := bs.foldl (fun acc b => acc * 256 + b.toNat) 0

/-- `n` modulo 256^`k` as `k` bytes, most significant byte first (R201). -/
def beN : Nat → Nat → List Byte
  | 0, _ => []
  | k + 1, n => beN k (n / 256) ++ [BitVec.ofNat 8 n]

/-- A signed value as `k` bytes of two's complement, most significant byte first (R201). -/
def beInt (k : Nat) (i : Int) : List Byte := beN k (i % (256 ^ k : Nat)).toNat

/-- One byte of a value below 256. -/
def b1 (n : Nat) : Byte := BitVec.ofNat 8 n

/-- A yes/no, masked/unmasked, set/clear, major/minor or on/off byte: 1 for the first word (R201). -/
def bBool (b : Bool) : Byte := if b then 1 else 0

/-- The value of the `len` bytes of `args` that begin at byte `off`. -/
def fld (args : List Byte) (off len : Nat) : Nat := be ((args.drop off).take len)

/-- One bit of a CRC-8 with generator polynomial 0x07 (R184). -/
def crc8Bit (c : Byte) : Byte := if c.msb then (c <<< 1) ^^^ 0x07#8 else c <<< 1

/-- One byte of the CRC-8, most significant bit first (R184). -/
def crc8Byte (c b : Byte) : Byte :=
  crc8Bit (crc8Bit (crc8Bit (crc8Bit (crc8Bit (crc8Bit (crc8Bit (crc8Bit (c ^^^ b))))))))

/-- The CRC-8 of R184: initial value 0xFF, no reflection, no final inversion. -/
def crc8 (bs : List Byte) : Byte := bs.foldl crc8Byte 0xFF#8

/-- One bit of a CRC-16 with generator polynomial 0x1021 (R175). -/
def crc16Bit (c : BitVec 16) : BitVec 16 := if c.msb then (c <<< 1) ^^^ 0x1021#16 else c <<< 1

/-- One byte of the CRC-16, most significant bit first (R175). -/
def crc16Byte (c : BitVec 16) (b : Byte) : BitVec 16 :=
  crc16Bit (crc16Bit (crc16Bit (crc16Bit (crc16Bit (crc16Bit (crc16Bit (crc16Bit
    (c ^^^ (b.setWidth 16 <<< 8)))))))))

/-- The CRC-16 of R175: initial value 0xFFFF, no reflection, no final inversion. -/
def crc16 (bs : List Byte) : BitVec 16 := bs.foldl crc16Byte 0xFFFF#16

/-- The bytes of a request frame: code, argument length, arguments, CRC-8 (R202). -/
def requestFrame (code : Byte) (args : List Byte) : List Byte :=
  let body := code :: b1 args.length :: args
  body ++ [crc8 body]

/-- R184: the length byte is 0 to 60, exactly 3 + n whole bytes and no trailing bits were received, and the CRC-8 of all but
the last byte equals the last byte. -/
def goodFrame (bytes : List Byte) (trailing : Nat) : Bool :=
  match bytes with
  | _ :: n :: _ =>
    decide (n.toNat ≤ 60) && decide (bytes.length = 3 + n.toNat) && decide (trailing = 0) &&
      decide (bytes.getLast? = some (crc8 bytes.dropLast))
  | _ => false

/-- R183: a frame whose first whole byte is 0x00 is a RESULT READ; its end is not judged. -/
def isResultRead (bytes : List Byte) : Bool := decide (bytes.head? = some 0x00#8)

/-- The request codes of R203. -/
def requestCodes : List Byte :=
  [0x01, 0x02, 0x03, 0x04, 0x05, 0x10, 0x11, 0x12, 0x18, 0x19, 0x1A,
   0x20, 0x21, 0x22, 0x23, 0x24, 0x25, 0x26, 0x27] ++
  [0x30, 0x31, 0x32, 0x33, 0x34, 0x38, 0x40, 0x41, 0x48, 0x49, 0x4A, 0x4B,
   0x50, 0x51, 0x52, 0x53, 0x60, 0x61, 0x62, 0x63, 0x64, 0x65, 0x66]

end Sys2Proof.Machine
end

