-- ==== Sys2Proof/WellFormed.lean ====
section
/-! DEFINITION. Which commands a sender can send: the limits the manual puts on a good frame (R184) and on the code of a
request that names none (R186); a frame that is not good may have any number of bytes. The meanings are total: on an ill-formed
command the event it names does not come about. -/

namespace Sys2Proof

/-- The argument bytes of a good frame: 0 to 60 of them (R184). -/
def wfArgs (args : List Byte) : Bool := decide (args.length ≤ 60)

/-- A command that can be sent. -/
def Instr.wf : Instr → Bool
  | .powerOn => true
  | .resetnFall => true
  | .settingsLoad _ => true
  | .prstnFall _ => true
  | .advance => true
  | .expiry => true
  | .activeEdge _ => true
  | .miss => true
  | .transition _ _ => true
  | .debounceWindowEnd _ _ => true
  | .contentionCheck _ _ => true
  | .leaseExpiry _ => true
  | .storeCompletion _ => true
  | .holdNotice => true
  | .badFrame _ bytes trailing =>
    decide (trailing ≤ 7) && !Machine.isResultRead bytes && !Machine.goodFrame bytes trailing
  | .unknownRequest _ code args =>
    wfArgs args && decide (code ≠ 0x00#8) && !Machine.requestCodes.contains code
  | .resultRead _ => true
  | .identify _ args => wfArgs args
  | .portStatus _ args => wfArgs args
  | .portReset _ args => wfArgs args
  | .leaseSet _ args => wfArgs args
  | .leaseRenew _ args => wfArgs args
  | .timeRead _ args => wfArgs args
  | .timeReadScaled _ args => wfArgs args
  | .timeSet _ args => wfArgs args
  | .refConfigure _ args => wfArgs args
  | .disciplineProfile _ args => wfArgs args
  | .disciplineStatus _ args => wfArgs args
  | .scheduleAt _ args => wfArgs args
  | .scheduleOnEdge _ args => wfArgs args
  | .cancel _ args => wfArgs args
  | .entryQuery _ args => wfArgs args
  | .scheduleList _ args => wfArgs args
  | .hold _ args => wfArgs args
  | .resume _ args => wfArgs args
  | .scheduleConfigure _ args => wfArgs args
  | .pinConfigure _ args _ => wfArgs args
  | .pinClaim _ args => wfArgs args
  | .pinRelease _ args => wfArgs args
  | .pinWrite _ args => wfArgs args
  | .pinRead _ args => wfArgs args
  | .subscribe _ args => wfArgs args
  | .eventRead _ args => wfArgs args
  | .ringConfigure _ args => wfArgs args
  | .vectorConfigure _ args => wfArgs args
  | .vectorAck _ args => wfArgs args
  | .notifyControl _ args => wfArgs args
  | .vectorRead _ args => wfArgs args
  | .faultRead _ args => wfArgs args
  | .faultClear _ args => wfArgs args
  | .faultConfigure _ args => wfArgs args
  | .faultRecordClear _ args => wfArgs args
  | .settingsClaim _ args => wfArgs args
  | .settingsRelease _ args => wfArgs args
  | .portLimitsSet _ args => wfArgs args
  | .settingsRead _ args => wfArgs args
  | .storeWrite _ args => wfArgs args
  | .storeFreeze _ args => wfArgs args
  | .hubReset _ args => wfArgs args
  | .prstnRise _ => true
  | .resetnRise => true
  | .powerLoss => true

end Sys2Proof
end

