-- ==== Sys2Proof/Decode.lean ====
section
/-! DEFINITION. Reading commands: `decodeTableWord` over the table's rows (no row of this block gives bits), and the frames of
the master ports, read into the command they are (R183 to R186, R203), with the encoder beside it. -/

namespace Sys2Proof

/-- The command that a word spells by the table's bits. No row of spec/opcode_table.json gives bits, so no word spells one. -/
def decodeTableWord (_nbits _w : Nat) : Option Instr := none

/-- The request a good frame with this code carries (R203); a code that names none is UNKNOWN_REQUEST (R186). `level` is the
level on the pin that a PIN CONFIGURE names. -/
def requestOf (p : Port) (code : Byte) (args : List Byte) (level : Level) : Instr :=
  if code = 0x01#8 then .identify p args
  else if code = 0x02#8 then .portStatus p args
  else if code = 0x03#8 then .portReset p args
  else if code = 0x04#8 then .leaseSet p args
  else if code = 0x05#8 then .leaseRenew p args
  else if code = 0x10#8 then .timeRead p args
  else if code = 0x11#8 then .timeReadScaled p args
  else if code = 0x12#8 then .timeSet p args
  else if code = 0x18#8 then .refConfigure p args
  else if code = 0x19#8 then .disciplineProfile p args
  else if code = 0x1A#8 then .disciplineStatus p args
  else if code = 0x20#8 then .scheduleAt p args
  else if code = 0x21#8 then .scheduleOnEdge p args
  else if code = 0x22#8 then .cancel p args
  else if code = 0x23#8 then .entryQuery p args
  else if code = 0x24#8 then .scheduleList p args
  else if code = 0x25#8 then .hold p args
  else if code = 0x26#8 then .resume p args
  else if code = 0x27#8 then .scheduleConfigure p args
  else if code = 0x30#8 then .pinConfigure p args level
  else if code = 0x31#8 then .pinClaim p args
  else if code = 0x32#8 then .pinRelease p args
  else if code = 0x33#8 then .pinWrite p args
  else if code = 0x34#8 then .pinRead p args
  else if code = 0x38#8 then .subscribe p args
  else if code = 0x40#8 then .eventRead p args
  else if code = 0x41#8 then .ringConfigure p args
  else if code = 0x48#8 then .vectorConfigure p args
  else if code = 0x49#8 then .vectorAck p args
  else if code = 0x4A#8 then .notifyControl p args
  else if code = 0x4B#8 then .vectorRead p args
  else if code = 0x50#8 then .faultRead p args
  else if code = 0x51#8 then .faultClear p args
  else if code = 0x52#8 then .faultConfigure p args
  else if code = 0x53#8 then .faultRecordClear p args
  else if code = 0x60#8 then .settingsClaim p args
  else if code = 0x61#8 then .settingsRelease p args
  else if code = 0x62#8 then .portLimitsSet p args
  else if code = 0x63#8 then .settingsRead p args
  else if code = 0x64#8 then .storeWrite p args
  else if code = 0x65#8 then .storeFreeze p args
  else if code = 0x66#8 then .hubReset p args
  else .unknownRequest p code args

/-- The command that a whole frame on port `p` is: a RESULT READ by its first byte (R183), a request when it is good (R184,
R186), and otherwise a BAD_FRAME (R185). -/
def commandOfFrame (p : Port) (bytes : List Byte) (trailing : Nat) (level : Level) : Instr :=
  if Machine.isResultRead bytes then .resultRead p
  else if Machine.goodFrame bytes trailing then
    match bytes with
    | code :: _ :: rest => requestOf p code rest.dropLast level
    | _ => .badFrame p bytes trailing
  else .badFrame p bytes trailing

/-- The code and the argument bytes of a request command (R203). -/
def Instr.request? : Instr → Option (Port × Byte × List Byte)
  | .unknownRequest p code args => some (p, code, args)
  | .identify p args => some (p, 0x01, args)
  | .portStatus p args => some (p, 0x02, args)
  | .portReset p args => some (p, 0x03, args)
  | .leaseSet p args => some (p, 0x04, args)
  | .leaseRenew p args => some (p, 0x05, args)
  | .timeRead p args => some (p, 0x10, args)
  | .timeReadScaled p args => some (p, 0x11, args)
  | .timeSet p args => some (p, 0x12, args)
  | .refConfigure p args => some (p, 0x18, args)
  | .disciplineProfile p args => some (p, 0x19, args)
  | .disciplineStatus p args => some (p, 0x1A, args)
  | .scheduleAt p args => some (p, 0x20, args)
  | .scheduleOnEdge p args => some (p, 0x21, args)
  | .cancel p args => some (p, 0x22, args)
  | .entryQuery p args => some (p, 0x23, args)
  | .scheduleList p args => some (p, 0x24, args)
  | .hold p args => some (p, 0x25, args)
  | .resume p args => some (p, 0x26, args)
  | .scheduleConfigure p args => some (p, 0x27, args)
  | .pinConfigure p args _ => some (p, 0x30, args)
  | .pinClaim p args => some (p, 0x31, args)
  | .pinRelease p args => some (p, 0x32, args)
  | .pinWrite p args => some (p, 0x33, args)
  | .pinRead p args => some (p, 0x34, args)
  | .subscribe p args => some (p, 0x38, args)
  | .eventRead p args => some (p, 0x40, args)
  | .ringConfigure p args => some (p, 0x41, args)
  | .vectorConfigure p args => some (p, 0x48, args)
  | .vectorAck p args => some (p, 0x49, args)
  | .notifyControl p args => some (p, 0x4A, args)
  | .vectorRead p args => some (p, 0x4B, args)
  | .faultRead p args => some (p, 0x50, args)
  | .faultClear p args => some (p, 0x51, args)
  | .faultConfigure p args => some (p, 0x52, args)
  | .faultRecordClear p args => some (p, 0x53, args)
  | .settingsClaim p args => some (p, 0x60, args)
  | .settingsRelease p args => some (p, 0x61, args)
  | .portLimitsSet p args => some (p, 0x62, args)
  | .settingsRead p args => some (p, 0x63, args)
  | .storeWrite p args => some (p, 0x64, args)
  | .storeFreeze p args => some (p, 0x65, args)
  | .hubReset p args => some (p, 0x66, args)
  | .powerOn => none
  | .resetnFall => none
  | .settingsLoad _ => none
  | .prstnFall _ => none
  | .advance => none
  | .expiry => none
  | .activeEdge _ => none
  | .miss => none
  | .transition _ _ => none
  | .debounceWindowEnd _ _ => none
  | .contentionCheck _ _ => none
  | .leaseExpiry _ => none
  | .storeCompletion _ => none
  | .holdNotice => none
  | .badFrame _ _ _ => none
  | .resultRead _ => none
  | .prstnRise _ => none
  | .resetnRise => none
  | .powerLoss => none

/-- The level that a PIN CONFIGURE command carries beside its frame; no other command has one. -/
def Instr.pinLevel : Instr → Level
  | .pinConfigure _ _ level => level
  | _ => false

/-- The encoder: the bytes of the frame that a frame command is, on its port (R202). -/
def Instr.frame? (i : Instr) : Option (Port × List Byte) :=
  i.request?.map fun r => (r.1, Machine.requestFrame r.2.1 r.2.2)

end Sys2Proof
end

