-- ==== Sys2Proof/Machine/State.lean ====
section
/-! DEFINITION. The state of the KB424: every piece of state the manual names, as plain data, block by block, with the queue of
commands that wait; and the state right after power-on, `State.reset` (notes/assumptions/7.md, 8.md). -/

namespace Sys2Proof.Machine

/-! ## Time counter (R1, R3, R4) -/

structure TimeCounter where
  ht : Nat
  htFrac : Nat
  rt : Nat
  rtFrac : Nat
  epoch : BitVec 16
deriving DecidableEq, Repr

/-- The greatest HT, RT or due value, 2^64 − 1. -/
def maxTime : Nat := 0xFFFFFFFFFFFFFFFF

/-! ## Discipline unit (02_reference_discipline.md, State of the discipline unit) -/

inductive DiscState where
  | freerun
  | search
  | acquire
  | track
  | locked
  | holdover
deriving DecidableEq, Repr

structure RefConfig where
  enabled : Bool
  trefUs : Nat
  edge : Edge
  stepEnable : Bool
deriving DecidableEq, Repr

structure Profile where
  lockIn : Nat
  lockOut : Nat
  trkIn : Nat
  acqIn : Nat
  stepTh : Nat
deriving DecidableEq, Repr

structure Discipline where
  cfg : RefConfig
  profile : Profile
  state : DiscState
  refPoint : Nat
  firstEdge : Bool
  /-- The RT at which the next miss occurs: implied by R20 (notes/assumptions/17.md). -/
  nextMiss : Nat
  missCount : Nat
  pairCount : Nat
  window : List Int
  lastE : Int
  /-- What last e was before the last accepted edge: implied by R32 (notes/assumptions/28.md). -/
  lastEBefore : Int
  f : Int
  s : Int
  unlockSeen : Tab 4 Bool
deriving DecidableEq, Repr

/-! ## Action schedule (R37, R40, R44, R107) -/

inductive Action where
  | set (pin : Pin) (level : Level)
  | pulse (pin : Pin) (level : Level) (width : Nat)
  | notify
deriving DecidableEq, Repr

structure Periodic where
  period : Nat
  /-- 0 for endless, or the remaining occurrences. -/
  repeats : Nat
deriving DecidableEq, Repr

inductive EntryKind where
  | timed (periodic : Option Periodic)
  | edge (inPin : Pin) (edge : Edge) (offset : Nat) (rearm : Nat)
deriving DecidableEq, Repr

/-- The fields of an entry that it has in every state (R37). Whether it is ARMED or WAITING is where it stands. -/
structure Entry where
  slot : Slot
  owner : Port
  tag : Byte
  action : Action
  kind : EntryKind
  report : Bool
  vector : Option VecNo
deriving DecidableEq, Repr

/-- The phase of an ARMED entry; the lead lateness is held in TRAIL only (R37). -/
inductive Phase where
  | lead
  | trail (leadLateness : Nat)
deriving DecidableEq, Repr

structure Armed where
  entry : Entry
  due : Nat
  phase : Phase
deriving DecidableEq, Repr

structure Schedule where
  /-- The armed list, head first (R44). -/
  armed : List Armed
  /-- The WAITING entries; the waiting queue of an owner, in pin and edge is its part with those fields, in this order
  (R107, notes/assumptions/23.md). -/
  waiting : List Entry
  /-- The schedule state: `true` is HELD, `false` is RUN. -/
  held : Bool
  lateThreshold : Nat
  /-- Hold notices that the fault log has handed over and the schedule has not taken (R54, R157). -/
  holdNotices : Nat
deriving DecidableEq, Repr

/-! ## Pin unit (R71, R74, R87) -/

inductive Direction where
  | unused
  | input
  | output
deriving DecidableEq, Repr

structure PinMap where
  dir : Direction
  safe : Level
  debounceUs : Nat
deriving DecidableEq, Repr

structure PinCell where
  map : PinMap
  holder : Option Port
  driven : Option Level
  /-- A pending contention check with its check point, or idle. -/
  check : Option Nat
deriving DecidableEq, Repr

/-! ## Capture unit (R92, R102) -/

structure Window where
  windowEnd : Nat
  stampHt : Nat
  stampEpoch : BitVec 16
  stampLocked : Bool
  stepMark : Bool
deriving DecidableEq, Repr

structure Watch where
  /-- A running debounce window (WINDOW), or none (IDLE). -/
  window : Option Window
  confirmed : Level
  /-- The level last sensed at the pin (R91). -/
  sensed : Level
deriving DecidableEq, Repr

inductive SubMode where
  | none
  | rise
  | fall
  | both
deriving DecidableEq, Repr

/-! ## Fault kinds, event rings (R121 to R123, R153) -/

inductive FaultKind where
  | refLost
  | refRunt
  | unlock
  | timeStep
  | lateFire
  | ringOverflow
  | leaseExpired
  | frameError
  | pinContention
  | storeInvalid
  | storeWriteFail
deriving DecidableEq, Repr

inductive Severity where
  | minor
  | major
deriving DecidableEq, Repr

inductive PhaseName where
  | lead
  | trail
deriving DecidableEq, Repr

/-- Why a claim-loss purge removed an entry (R67). -/
inductive Reason where
  | lease
  | released
deriving DecidableEq, Repr

/-- The kind of an event record, with the fields of the kind (R123). -/
inductive RecordBody where
  | capture (pin : Pin) (edge : Edge)
  | fired (tag : Byte) (slot : Slot) (phase : PhaseName) (lateness skipped remaining : Nat)
  | cancelled (tag : Byte) (slot : Slot) (reason : Reason)
  /-- The pin lost, or none for the settings claim. -/
  | claimLost (pin : Option Pin)
  | discipline (old new : DiscState) (lastE : Int)
  | fault (kind : FaultKind) (severity : Severity)
  | storeDone (ok : Bool)
deriving DecidableEq, Repr

structure Record where
  body : RecordBody
  /-- 0 when the dropped count is absent. -/
  dropped : Nat
  late : Bool
  locked : Bool
  ht : Nat
  epoch : BitVec 16
deriving DecidableEq, Repr

structure Ring where
  records : List Record
  mark : Nat
  selDiscipline : Bool
  selFault : Bool
  pendingDrops : Nat
deriving DecidableEq, Repr

/-! ## Notification unit (R138) -/

inductive VecState where
  | idle
  | pending
  | active
deriving DecidableEq, Repr

structure Vec where
  state : VecState
  count : Nat
  masked : Bool
deriving DecidableEq, Repr

inductive RaiseClass where
  | ringMark
  | ringOverflow
  | claim
  | discipline
  | fault
  | store
deriving DecidableEq, Repr

structure NotifyUnit where
  vecs : Tab 8 Vec
  /-- RING_MARK, RING_OVERFLOW, CLAIM, DISCIPLINE, FAULT, STORE, in that order. -/
  classMap : Tab 6 VecNo
  enable : Bool
  functionMask : Bool
  /-- The NOTIFYn line: `true` is low. -/
  notifynLow : Bool
deriving DecidableEq, Repr

/-! ## Fault log (R152, R153) -/

/-- The context of an occurrence (R153). -/
inductive FaultContext where
  | none
  | missCount (n : Nat)
  | interval (ns : Nat)
  | phaseError (e : Int)
  | stepAmount (ns : Nat)
  | lateFire (tag : Byte) (slot : Slot) (lateness : Nat)
  | frame (b0 b1 b2 b3 : Byte)
  | contention (pin : Pin) (driven : Level)
deriving DecidableEq, Repr

structure FaultCell where
  count : Nat
  masked : Bool
  severity : Severity
deriving DecidableEq, Repr

structure CaptureRecord where
  kind : FaultKind
  ht : Nat
  epoch : BitVec 16
  port : Option Port
  context : FaultContext
deriving DecidableEq, Repr

structure FaultLog where
  cells : Tab 11 FaultCell
  capture : Option CaptureRecord
  overflow : Bool
  safeOnMajor : Bool
  /-- The FAULTn line: `true` is low. -/
  faultnLow : Bool
deriving DecidableEq, Repr

/-! ## Settings unit (R168, R172, R175, R178) -/

/-- What the non-volatile image holds: the bytes last written, or contents the manual gives only as invalid, after a write
that was cut or failed its verify (R179, R181; notes/assumptions/10.md). -/
inductive StoreImage where
  | bytes (bs : List Byte)
  | spoiled
deriving DecidableEq, Repr

/-- The store state; WRITING holds the snapshot, the RT count at the take and whether the snapshot freezes (R178, R180). -/
inductive StoreState where
  | valid
  | invalid
  | writing (snapshot : List Byte) (takenAt : Nat) (freeze : Bool)
deriving DecidableEq, Repr

structure SettingsUnit where
  holder : Option Port
  quotas : Tab 4 Nat
  frozen : Bool
  store : StoreState
  requester : Option Port
  image : StoreImage
deriving DecidableEq, Repr

/-! ## Master ports (R183, R187, R191, R202) -/

inductive Status where
  | ok
  | none
  | badFrame
  | unknownRequest
  | badArgument
  | badTime
  | notPermitted
  | notOwner
  | heldBy
  | noEntry
  | tagInUse
  | full
  | quota
  | wrongDirection
  | inUse
  | frozen
  | storeBusy
  | wrongState
  | backward
  | faultActive
  | lapsed
deriving DecidableEq, Repr

/-- The result buffer: the result length is the number of data bytes. -/
structure Result where
  status : Status
  code : Byte
  data : List Byte
deriving DecidableEq, Repr

inductive Lease where
  | none
  | running (expiryPoint : Nat)
  | expired
deriving DecidableEq, Repr

/-- The part of a frame in progress: none, a request frame's bytes with its trailing bits, or the bytes that a RESULT READ shifts
out. A frame is one command, which ends with the receiver idle (R183, notes/assumptions/1.md). -/
inductive Receiver where
  | idle
  | receiving (bytes : List Byte) (trailing : Nat)
  | shifting (out : List Byte)
deriving DecidableEq, Repr

structure PortState where
  receiver : Receiver
  /-- What SDO_p shifted out in the port's last frame, first byte first; every byte after these is 0xFF (`PortState.sdoByte`). -/
  sdo : List Byte
  /-- CSn_p is low in a frame that began while no frame could begin: the receiver stays idle through it (R195, R199). -/
  missed : Bool
  result : Result
  leasePeriodMs : Nat
  lease : Lease
  defaultLeaseMs : Nat
  /-- The PRSTn line: `true` is low. -/
  prstnLow : Bool
deriving DecidableEq, Repr

/-- Byte `k` that SDO_p shifted out in the port's last frame: ones through a request frame, in the first byte of a RESULT READ and
after its CRC (R183, R187). -/
def PortState.sdoByte (q : PortState) (k : Nat) : Byte := q.sdo.getD k 0xFF#8

/-- The reset that a settings load follows (R176). -/
inductive LoadKind where
  | powerOn
  /-- `atOnce`: the reset was by request, and the load follows at once; by the line it follows the rise of RESETn (R199). -/
  | hubReset (atOnce : Bool)
deriving DecidableEq, Repr

/-! ## The whole -/

structure State where
  powered : Bool
  /-- The RESETn line: `true` is low. -/
  resetnLow : Bool
  /-- The settings load that is awaited, or none. -/
  load : Option LoadKind
  time : TimeCounter
  disc : Discipline
  sched : Schedule
  pins : Tab 24 PinCell
  watch : Tab 24 (Option Watch)
  subs : Tab 4 (Tab 24 SubMode)
  rings : Tab 4 Ring
  vectors : Tab 4 NotifyUnit
  faults : FaultLog
  settings : SettingsUnit
  ports : Tab 4 PortState
  /-- The model's own: how many free values have been drawn (notes/assumptions/5.md). -/
  choices : Nat
  /-- The commands that wait, first in first out. -/
  pending : List Instr
deriving DecidableEq, Repr

/-- Nothing stops the KB424: every command answers a next state. The manual's faults are occurrences of the fault log. -/
inductive Fault where
deriving DecidableEq, Repr

/-- Why a command has no meaning here. -/
inductive Refusal where
  /-- Raised by a refused arm of exec, for a command not modelled yet: safe. No arm raises it now. -/
  | notModelled (mnemonic : String)
deriving DecidableEq, Repr

/-! ## Values at power-on -/

/-- The built-in default of the reference configuration (R177). -/
def RefConfig.builtin : RefConfig := ⟨false, 1000000, .rise, true⟩

/-- The built-in default of the discipline profile (R177). -/
def Profile.builtin : Profile := ⟨200, 500, 10000, 50000, 1000000⟩

/-- R35, power-on. -/
def Discipline.reset : Discipline where
  cfg := .builtin
  profile := .builtin
  state := .freerun
  refPoint := 0
  firstEdge := false
  nextMiss := 0
  missCount := 0
  pairCount := 0
  window := []
  lastE := 0
  lastEBefore := 0
  f := 0
  s := 0
  unlockSeen := .fill 4 false

/-- R70, power-on. -/
def Schedule.reset : Schedule where
  armed := []
  waiting := []
  held := false
  lateThreshold := 10000
  holdNotices := 0

/-- R90, power-on. -/
def PinCell.reset : PinCell := ⟨⟨.unused, false, 0⟩, none, none, none⟩

/-- R136. -/
def Ring.reset : Ring := ⟨[], 0, false, false, 0⟩

/-- R149, R151. -/
def NotifyUnit.reset : NotifyUnit where
  vecs := .fill 8 ⟨.idle, 0, true⟩
  classMap := .fill 6 0
  enable := false
  functionMask := false
  notifynLow := false

/-- The number of a fault kind, in the order of R153 (R201). -/
def FaultKind.idx : FaultKind → Fin 11
  | .refLost => 0
  | .refRunt => 1
  | .unlock => 2
  | .timeStep => 3
  | .lateFire => 4
  | .ringOverflow => 5
  | .leaseExpired => 6
  | .frameError => 7
  | .pinContention => 8
  | .storeInvalid => 9
  | .storeWriteFail => 10

/-- The default severity of the kind with this number: PIN_CONTENTION, STORE_INVALID and STORE_WRITE_FAIL are major (R153). -/
def defaultSeverity (k : Fin 11) : Severity := if 8 ≤ k.val then .major else .minor

/-- R166, power-on. -/
def FaultLog.reset : FaultLog where
  cells := .build fun k => ⟨0, false, defaultSeverity k⟩
  capture := none
  overflow := false
  safeOnMajor := true
  faultnLow := false

/-- R182, power-on, with the image of a part whose store has never been written (notes/assumptions/9.md). -/
def SettingsUnit.reset : SettingsUnit where
  holder := none
  quotas := .fill 4 16
  frozen := false
  store := .invalid
  requester := none
  image := .bytes (List.replicate 128 0xFF#8)

/-- A result buffer that holds NONE (R196, R202). -/
def Result.empty : Result := ⟨.none, 0x00#8, []⟩

/-- R200, power-on. -/
def PortState.reset : PortState where
  receiver := .idle
  sdo := []
  missed := false
  result := .empty
  leasePeriodMs := 0
  lease := .none
  defaultLeaseMs := 0
  prstnLow := false

/-- The machine right after power-on: every block at its power-on values, the settings load awaited (R200). -/
def State.reset : State where
  powered := true
  resetnLow := false
  load := some .powerOn
  time := ⟨0, 0, 0, 0, 0⟩
  disc := .reset
  sched := .reset
  pins := .fill 24 .reset
  watch := .fill 24 none
  subs := .fill 4 (.fill 24 .none)
  rings := .fill 4 .reset
  vectors := .fill 4 .reset
  faults := .reset
  settings := .reset
  ports := .fill 4 .reset
  choices := 0
  pending := []

end Sys2Proof.Machine
end

