-- ==== Sys2Proof/Machine/Codes.lean ====
section
/-! DEFINITION. The codes of the enumerated values (R201) and of the statuses (R202), and their readings from argument bytes;
a byte with no defined code reads as none. -/

namespace Sys2Proof.Machine

def DiscState.code : DiscState → Nat
  | .freerun => 0
  | .search => 1
  | .acquire => 2
  | .track => 3
  | .locked => 4
  | .holdover => 5

def Direction.code : Direction → Nat
  | .unused => 0
  | .input => 1
  | .output => 2

def Direction.ofCode : Nat → Option Direction
  | 0 => some .unused
  | 1 => some .input
  | 2 => some .output
  | _ => none

def edgeCode : Edge → Nat
  | .rise => 0
  | .fall => 1

def edgeOfCode : Nat → Option Edge
  | 0 => some .rise
  | 1 => some .fall
  | _ => none

def SubMode.code : SubMode → Nat
  | .none => 0
  | .rise => 1
  | .fall => 2
  | .both => 3

/-- A byte of 4 or more names no mode (`none` alone would be the mode NONE here). -/
def SubMode.ofCode : Nat → Option SubMode
  | 0 => some .none
  | 1 => some .rise
  | 2 => some .fall
  | 3 => some .both
  | _ => Option.none

/-- Whether a subscription includes an edge (R99, R102). -/
def SubMode.includes : SubMode → Edge → Bool
  | .none, _ => false
  | .rise, .rise => true
  | .rise, .fall => false
  | .fall, .rise => false
  | .fall, .fall => true
  | .both, _ => true

def Action.code : Action → Nat
  | .set _ _ => 0
  | .pulse _ _ _ => 1
  | .notify => 2

def EntryKind.code : EntryKind → Nat
  | .timed _ => 0
  | .edge _ _ _ _ => 1

def Phase.code : Phase → Nat
  | .lead => 0
  | .trail _ => 1

def PhaseName.code : PhaseName → Nat
  | .lead => 0
  | .trail => 1

def Reason.code : Reason → Nat
  | .lease => 0
  | .released => 1

def VecState.code : VecState → Nat
  | .idle => 0
  | .pending => 1
  | .active => 2

def Lease.code : Lease → Nat
  | .none => 0
  | .running _ => 1
  | .expired => 2

def StoreState.code : StoreState → Nat
  | .valid => 0
  | .invalid => 1
  | .writing _ _ _ => 2

def StoreState.isWriting : StoreState → Bool
  | .valid => false
  | .invalid => false
  | .writing _ _ _ => true

def Severity.code : Severity → Nat
  | .minor => 0
  | .major => 1

/-- The fault kind with this number, in the order of R153. -/
def FaultKind.ofCode : Nat → Option FaultKind
  | 0 => some .refLost
  | 1 => some .refRunt
  | 2 => some .unlock
  | 3 => some .timeStep
  | 4 => some .lateFire
  | 5 => some .ringOverflow
  | 6 => some .leaseExpired
  | 7 => some .frameError
  | 8 => some .pinContention
  | 9 => some .storeInvalid
  | 10 => some .storeWriteFail
  | _ => none

/-- The place of a class in the class map, in the order of R203. -/
def RaiseClass.idx : RaiseClass → Fin 6
  | .ringMark => 0
  | .ringOverflow => 1
  | .claim => 2
  | .discipline => 3
  | .fault => 4
  | .store => 5

/-- The status codes of R202. -/
def Status.code : Status → Nat
  | .ok => 0x00
  | .none => 0x01
  | .badFrame => 0x02
  | .unknownRequest => 0x03
  | .badArgument => 0x04
  | .badTime => 0x05
  | .notPermitted => 0x06
  | .notOwner => 0x07
  | .heldBy => 0x08
  | .noEntry => 0x09
  | .tagInUse => 0x0A
  | .full => 0x0B
  | .quota => 0x0C
  | .wrongDirection => 0x0D
  | .inUse => 0x0E
  | .frozen => 0x0F
  | .storeBusy => 0x10
  | .wrongState => 0x11
  | .backward => 0x12
  | .faultActive => 0x13
  | .lapsed => 0x14

/-- A port number, or 0xFF for none (R201). -/
def portByte (o : Option Port) : Byte :=
  match o with
  | some p => b1 p.val
  | none => 0xFF#8

/-- A port number in a packed nibble, or 0xF for none (R201). -/
def portNibble (o : Option Port) : Nat :=
  match o with
  | some p => p.val
  | none => 0xF

/-- A byte that is 0 or 1, read as a Bool (R201). -/
def boolOfCode : Nat → Option Bool
  | 0 => some false
  | 1 => some true
  | _ => none

/-- A pin number 0 to 23. -/
def pinOfCode (n : Nat) : Option Pin := if h : n < 24 then some ⟨n, h⟩ else none

/-- A vector number 0 to 7. -/
def vecOfCode (n : Nat) : Option VecNo := if h : n < 8 then some ⟨n, h⟩ else none

end Sys2Proof.Machine
end

