-- ==== Sys2Proof/Machine/Flags.lean ====
section
/-! DEFINITION. Every flag and line the hub computes from its state: held-back vectors and NOTIFYn (R138, R143), FAULTn (R159),
the locked flag (R10), and the port flags of a RESULT READ (R188, R202). -/

namespace Sys2Proof.Machine

/-- R138: a vector is held back when its own mask is masked or its port's function mask is set. -/
def NotifyUnit.heldBack (n : NotifyUnit) (v : VecNo) : Bool := (n.vecs.get v).masked || n.functionMask

/-- At least one vector of the port is ACTIVE. -/
def NotifyUnit.anyActive (n : NotifyUnit) : Bool :=
  allVecs.any fun v => decide ((n.vecs.get v).state = .active)

/-- R143: NOTIFYn is low exactly while at least one vector is ACTIVE. -/
def NotifyUnit.setLine (n : NotifyUnit) : NotifyUnit := { n with notifynLow := n.anyActive }

/-- The fault kinds' numbers, 0 to 10. -/
def allKinds : List (Fin 11) := [0, 1, 2, 3, 4, 5, 6, 7, 8, 9, 10]

/-- An unmasked kind of major severity has a non-zero count (R159). -/
def FaultLog.majorStands (l : FaultLog) : Bool :=
  allKinds.any fun k =>
    !(l.cells.get k).masked && decide ((l.cells.get k).severity = .major) && decide ((l.cells.get k).count ≠ 0)

/-- R159: FAULTn set anew from the counts, masks and severities. -/
def FaultLog.setLine (l : FaultLog) : FaultLog := { l with faultnLow := l.majorStands }

/-- The discipline state is LOCKED (R10, R124). -/
def State.isLocked (s : State) : Bool := decide (s.disc.state = .locked)

/-- The port holds the settings claim (R168). -/
def State.holdsSettings (s : State) (p : Port) : Bool := decide (s.settings.holder = some p)

/-- The port's lease state is EXPIRED (R191). -/
def State.leaseExpired (s : State) (p : Port) : Bool := decide ((s.ports.get p).lease = .expired)

/-- The value of a flag in bit `k`. -/
def bitAt (k : Nat) (b : Bool) : Nat := if b then 2 ^ k else 0

/-- The port flags of a RESULT READ (R188), placed as R202 states. -/
def portFlags (p : Port) (s : State) : Byte :=
  b1 (bitAt 0 (s.vectors.get p).notifynLow +
    bitAt 1 (decide (1 ≤ (s.rings.get p).records.length)) +
    bitAt 2 (s.holdsSettings p) +
    bitAt 3 s.faults.faultnLow +
    bitAt 4 (s.leaseExpired p) +
    bitAt 5 s.sched.held)

end Sys2Proof.Machine
end

