-- ==== Sys2Proof/Machine/Ops.lean ====
section
/-! DEFINITION. The operations that the meanings share: taking a request frame and answering it (R186), free values, raises
(R141), appends and drops of records (R126 to R128), fault occurrences (R154 to R158), and drives of pins (R72, R73). -/

namespace Sys2Proof.Machine

/-! ## Taking a request -/

/-- R183, R195, R199: port `p` begins and takes a frame while supply is applied, PRSTn_p and RESETn are high, the settings load
after the last power-on or hub reset has been taken, its receiver is idle and CSn_p has risen since. -/
def State.takesFrames (s : State) (p : Port) : Bool :=
  s.powered && !s.resetnLow && s.load.isNone && !(s.ports.get p).prstnLow &&
    decide ((s.ports.get p).receiver = .idle) && !(s.ports.get p).missed

/-- The end of a frame of port `p`: its receiver is idle, and the next fall of CSn_p begins a new frame (R183). -/
def frameEnd (p : Port) (s : State) : State :=
  { s with ports := s.ports.upd p fun q => { q with receiver := .idle, missed := false } }

/-- What a request's rule leaves: the state, the status and the result data. -/
structure Reply where
  state : State
  status : Status
  data : List Byte
deriving DecidableEq, Repr

/-- A refusal: the state as it was, and no data (00_scope.md, Requests and results; R202). -/
def refuse (s : State) (st : Status) : Reply := ⟨s, st, []⟩

/-- The refusal HELD_BY, carrying the holder (R202). -/
def refuseHeldBy (s : State) (holder : Port) : Reply := ⟨s, .heldBy, [b1 holder.val]⟩

/-- A request carried out. -/
def ok (s : State) (data : List Byte) : Reply := ⟨s, .ok, data⟩

/-- The end of a request frame whose outcome is written into the port's result buffer: the receiver is idle again, and SDO_p has
shifted out ones (R183, R186). -/
def answer (p : Port) (r : Result) (s : State) : State :=
  { s with ports := s.ports.upd p fun q => { q with receiver := .idle, sdo := [], result := r } }

/-- A good request frame at its end: carried out or refused by its rule, and answered (R186). A frame on a port that takes none
is not received: it takes nothing, and it ends (R183, R195, R199). -/
def request (p : Port) (code : Byte) (s : State) (rule : State → Reply) : State :=
  if s.takesFrames p then
    let r := rule s
    answer p ⟨r.status, code, r.data⟩ r.state
  else frameEnd p s

/-! ## Free values -/

/-- One free choice between two orders. -/
def drawFirst (s : State) : Bool × State :=
  (Config.firstOfTwo s.choices, { s with choices := s.choices + 1 })

/-- A list with `x` put in at place `k`, at its end when `k` lies beyond it. -/
def insertAt {α : Type} (x : α) : Nat → List α → List α
  | 0, l => x :: l
  | _ + 1, [] => [x]
  | k + 1, y :: l => y :: insertAt x k l

/-- The order of a list that the number `k` picks; every order is picked by some number. -/
def permute {α : Type} : Nat → List α → List α
  | _, [] => []
  | k, x :: l => insertAt x (k % (l.length + 1)) (permute (k / (l.length + 1)) l)

/-- A list of occurrences to take, in a free order; nothing is drawn where there is only one order. -/
def freeOrder (l : List Port) (s : State) : List Port × State :=
  match l with
  | _ :: _ :: _ => (permute (Config.orderOfMany s.choices) l, { s with choices := s.choices + 1 })
  | _ => (l, s)

/-! ## Raises (R139 to R142) -/

/-- R141: a raise on vector `v` of a port. -/
def NotifyUnit.raise (v : VecNo) (n : NotifyUnit) : NotifyUnit :=
  if n.enable then
    let c := n.vecs.get v
    let c' : Vec :=
      if c.state = .idle then
        { c with state := if n.heldBack v then .pending else .active, count := 1 }
      else { c with count := min 255 (c.count + 1) }
    NotifyUnit.setLine { n with vecs := n.vecs.set v c' }
  else n

/-- An entry raise: vector `v` of port `p` (R140). -/
def raiseVec (p : Port) (v : VecNo) (s : State) : State :=
  { s with vectors := s.vectors.upd p (NotifyUnit.raise v) }

/-- A class raise: the vector that the port's class map holds for the class (R139). -/
def raiseClass (p : Port) (c : RaiseClass) (s : State) : State :=
  raiseVec p ((s.vectors.get p).classMap.get c.idx) s

/-- A class raise of each port of a list. -/
def raiseClassAll (c : RaiseClass) : List Port → State → State
  | [], s => s
  | p :: ps, s => raiseClassAll c ps (raiseClass p c s)

/-! ## Records (R122, R124, R126 to R128) -/

/-- A record stamped at this event (R6, R124). -/
def stamped (s : State) (body : RecordBody) (late locked : Bool) : Record :=
  ⟨body, 0, late, locked, s.time.ht, s.time.epoch⟩

/-- A record whose LATE flag is clear and whose LOCKED flag tells the discipline state at this event (R124). -/
def plainRecord (s : State) (body : RecordBody) : Record := stamped s body false s.isLocked

/-- The ring's own part of a posting: the append of R126 or the drop of R128. -/
def Ring.take (r : Record) (g : Ring) : Ring :=
  if g.records.length < 32 then
    { g with records := g.records ++ [{ r with dropped := g.pendingDrops }], pendingDrops := 0 }
  else { g with pendingDrops := min 255 (g.pendingDrops + 1) }

/-- R127: the append takes the count from the mark or below to above the mark. -/
def Ring.crosses (g : Ring) : Bool :=
  decide (g.records.length < 32) && decide (g.records.length ≤ g.mark) && decide (g.mark < g.records.length + 1)

/-- R128: the record is dropped, and it is the first drop of an overflow episode. -/
def Ring.beginsEpisode (g : Ring) : Bool :=
  decide (32 ≤ g.records.length) && decide (g.pendingDrops = 0)

/-- A record posted to the ring of `p`, with the class raise of R127 or of R128 step 3; and whether an overflow episode began,
so that the occurrence of R128 step 4 is to follow. -/
def ringPut (p : Port) (r : Record) (s : State) : State × Bool :=
  let g := s.rings.get p
  let s1 := { s with rings := s.rings.set p (g.take r) }
  let s2 := if g.crosses then raiseClass p .ringMark s1 else s1
  if g.beginsEpisode then (raiseClass p .ringOverflow s2, true) else (s2, false)

/-- A record posted to the rings of a list of ports, and the ports whose rings began an episode. -/
def ringPutAll (r : Record) : List Port → State → State × List Port
  | [], s => (s, [])
  | p :: ps, s =>
    let (s1, first) := ringPut p r s
    let (s2, more) := ringPutAll r ps s1
    (s2, if first then p :: more else more)

/-- The ports whose ring selection has FAULT selected (R125). -/
def faultSelectors (s : State) : List Port := allPorts.filter fun p => (s.rings.get p).selFault

/-- The ports whose ring selection has DISCIPLINE selected (R125). -/
def disciplineSelectors (s : State) : List Port := allPorts.filter fun p => (s.rings.get p).selDiscipline

/-! ## Fault occurrences (R154 to R158) -/

/-- The count of a kind after one more occurrence (R154). -/
def bumpCount (k : FaultKind) (s : State) : State :=
  { s with faults := { s.faults with
    cells := s.faults.cells.upd k.idx fun c => { c with count := min 255 (c.count + 1) } } }

/-- R155: the capture record, or the overflow flag when one is held. -/
def captureOccurrence (k : FaultKind) (port : Option Port) (ctx : FaultContext) (s : State) : State :=
  match s.faults.capture with
  | none => { s with faults := { s.faults with
      capture := some ⟨k, s.time.ht, s.time.epoch, port, ctx⟩ } }
  | some _ => { s with faults := { s.faults with overflow := true } }

/-- R159: FAULTn set anew. -/
def setFaultn (s : State) : State := { s with faults := s.faults.setLine }

/-- R156: the FAULT records to the selecting rings and the FAULT class raise of every port; and the ports whose rings began an
episode. -/
def notifyOccurrence (k : FaultKind) (sev : Severity) (s : State) : State × List Port :=
  let (s1, drops) := ringPutAll (plainRecord s (.fault k sev)) (faultSelectors s) s
  (raiseClassAll .fault allPorts s1, drops)

/-- R157: the hold notice, handed to the schedule. -/
def handHoldNotice (s : State) : State :=
  { s with sched := { s.sched with holdNotices := s.sched.holdNotices + 1 } }

/-- One occurrence taken whole in the order of R158; and the ports whose rings began an overflow episode at its FAULT records,
each a separate occurrence to take after this one. -/
def occurOne (k : FaultKind) (port : Option Port) (ctx : FaultContext) (s : State) : State × List Port :=
  let c := s.faults.cells.get k.idx
  let s1 := bumpCount k s
  if c.masked then (s1, [])
  else
    let s2 := setFaultn (captureOccurrence k port ctx s1)
    let (s3, drops) := if c.count = 0 then notifyOccurrence k c.severity s2 else (s2, [])
    (if c.severity = .major ∧ s.faults.safeOnMajor then handHoldNotice s3 else s3, drops)

/-- The RING_OVERFLOW occurrences of a list of ports, one after another. -/
def occurOverflows : List Port → State → State × List Port
  | [], s => (s, [])
  | p :: ps, s =>
    let (s1, d1) := occurOne .ringOverflow (some p) .none s
    let (s2, d2) := occurOverflows ps s1
    (s2, d1 ++ d2)

/-- R128 step 4 for every ring that began an episode. The FAULT record of the first of these occurrences may begin episodes in
other rings; their occurrences find the count above 0 and post nothing, so two rounds take them all. -/
def reportOverflows (drops : List Port) (s : State) : State :=
  let (o1, s0) := freeOrder drops s
  let (s1, d1) := occurOverflows o1 s0
  let (o2, s2) := freeOrder d1 s1
  (occurOverflows o2 s2).1

/-- An occurrence of a fault kind with all that follows from it at the event (R154 to R158, R128). -/
def occur (k : FaultKind) (port : Option Port) (ctx : FaultContext) (s : State) : State :=
  let (s1, drops) := occurOne k port ctx s
  reportOverflows drops s1

/-- A record posted to one port's ring, with all that follows from it at the event (R126 to R128). -/
def post (p : Port) (r : Record) (s : State) : State :=
  let (s1, first) := ringPut p r s
  if first then reportOverflows [p] s1 else s1

/-- The same record posted to the rings of several ports. -/
def postAll (r : Record) (ports : List Port) (s : State) : State :=
  let (s1, drops) := ringPutAll r ports s
  reportOverflows drops s1

/-! ## Drives of pins (R72, R73, R87) -/

/-- The settle interval of a contention check, in ns of RT (R87). -/
def settleNs : Nat := 2000

/-- A pin driven to a level: a level that differs from the driven level is a change, which starts or restarts the contention
check. A pin that is not OUT has no driven level (R72). -/
def PinCell.drive (rt : Nat) (level : Level) (c : PinCell) : PinCell :=
  if c.map.dir = .output then
    if c.driven = some level then c else { c with driven := some level, check := some (rt + settleNs) }
  else c

/-- A level drive (R73). -/
def levelDrive (pin : Pin) (level : Level) (s : State) : State :=
  { s with pins := s.pins.upd pin (PinCell.drive s.time.rt level) }

/-- A pin driven to the safe level that its map entry holds (R72). -/
def PinCell.driveSafe (rt : Nat) (c : PinCell) : PinCell := c.drive rt c.map.safe

/-- A safe drive (R72). -/
def safeDrive (pin : Pin) (s : State) : State :=
  { s with pins := s.pins.upd pin (PinCell.driveSafe s.time.rt) }

/-- A pin hold notice: a safe drive on every OUT pin, claimed or not (R85). -/
def safeDriveAll (s : State) : State :=
  { s with pins := s.pins.map (PinCell.driveSafe s.time.rt) }

/-- The schedule goes from RUN to HELD and hands the pin unit its notice; in HELD nothing changes (R61, R62). -/
def enterHeld (s : State) : State :=
  if s.sched.held then s else safeDriveAll { s with sched := { s.sched with held := true } }

/-! ## Leases and the store -/

/-- A lease started with a period (R191). -/
def PortState.startLease (rt periodMs : Nat) (q : PortState) : PortState :=
  { q with
    leasePeriodMs := periodMs
    lease := if periodMs = 0 then .none else .running (rt + periodMs * 1000000) }

/-- A write in progress abandoned: the store is no longer WRITING and its image is invalid at the next load (R181). -/
def SettingsUnit.abandonWrite (u : SettingsUnit) : SettingsUnit :=
  match u.store with
  | .writing _ _ _ => { u with store := .invalid, image := .spoiled }
  | .valid => u
  | .invalid => u

end Sys2Proof.Machine
end

