-- ==== Sys2Proof/Machine/Expiry.lean ====
section
/-! DEFINITION. What the schedule does to its entries: insertion (R44), expiry with all its work (R45 to R54), continuation (R52,
R53, R114), late expiries (R46), arming by an edge (R111, R112), and the purges (R67, R69). -/

namespace Sys2Proof.Machine

/-! ## Entries -/

/-- The out pin of a SET or PULSE action (R37). -/
def Action.outPin : Action → Option Pin
  | .set pin _ => some pin
  | .pulse pin _ _ => some pin
  | .notify => none

/-- The in pin of an EDGE entry (R37). -/
def Entry.inPin (e : Entry) : Option Pin :=
  match e.kind with
  | .timed _ => none
  | .edge pin _ _ _ => some pin

/-- The entry stands in the waiting queue of this owner, in pin and edge (R107). -/
def Entry.inQueue (o : Port) (pin : Pin) (ed : Edge) (e : Entry) : Bool :=
  match e.kind with
  | .timed _ => false
  | .edge pin' ed' _ _ => decide (e.owner = o) && decide (pin' = pin) && decide (ed' = ed)

/-- Every live entry: the ARMED ones in armed-list order, then the WAITING ones (R37). -/
def Schedule.live (c : Schedule) : List Entry := c.armed.map (·.entry) ++ c.waiting

/-- A port's holdings: the number of its live entries (R38). -/
def Schedule.holdings (c : Schedule) (p : Port) : Nat :=
  (c.live.filter fun e => decide (e.owner = p)).length

/-- The lowest-numbered free slot (R38). -/
def Schedule.freeSlot (c : Schedule) : Option Slot :=
  allSlots.find? fun sl => !(c.live.any fun e => decide (e.slot = sl))

/-- The tag is live for the port (R39). -/
def Schedule.tagLive (c : Schedule) (p : Port) (tag : Byte) : Bool :=
  c.live.any fun e => decide (e.owner = p) && decide (e.tag = tag)

/-- The waiting queue of an owner, in pin and edge, oldest first (R107). -/
def Schedule.queue (c : Schedule) (o : Port) (pin : Pin) (ed : Edge) : List Entry :=
  c.waiting.filter (Entry.inQueue o pin ed)

/-- A port's WAITING entries in the order of SCHEDULE LIST: by in pin, RISE before FALL, oldest first (R59). -/
def Schedule.waitingOf (c : Schedule) (p : Port) : List Entry :=
  allPins.flatMap fun pin => c.queue p pin .rise ++ c.queue p pin .fall

/-! ## The armed list -/

/-- R44: after every entry whose due is less than or equal to its own, before the first entry whose due is greater. -/
def insertArmed (a : Armed) : List Armed → List Armed
  | [] => [a]
  | b :: bs => if b.due ≤ a.due then b :: insertArmed a bs else a :: b :: bs

/-- An entry put on the armed list. -/
def armEntry (a : Armed) (s : State) : State :=
  { s with sched := { s.sched with armed := insertArmed a s.sched.armed } }

/-- An entry put at the tail of its waiting queue (R107). -/
def waitEntry (e : Entry) (s : State) : State :=
  { s with sched := { s.sched with waiting := s.sched.waiting ++ [e] } }

/-! ## Expiry -/

/-- The drive of an expiry (R47): the level in LEAD, the trailing level of a PULSE in TRAIL. -/
def expiryDrive (a : Armed) (s : State) : State :=
  match a.entry.action, a.phase with
  | .set pin level, _ => levelDrive pin level s
  | .pulse pin level _, .lead => levelDrive pin level s
  | .pulse pin level _, .trail _ => levelDrive pin (!level) s
  | .notify, _ => s

/-- R51: an expiry whose own lateness is greater than the late threshold is an occurrence of LATE_FIRE. -/
def lateFire (a : Armed) (lateness : Nat) (s : State) : State :=
  if s.sched.lateThreshold < lateness then
    occur .lateFire (some a.entry.owner) (.lateFire a.entry.tag a.entry.slot lateness) s
  else s

/-- R48: the LEAD of a PULSE puts its entry back as TRAIL, due at the lead due plus the width. -/
def reinsertTrail (a : Armed) (width lateness : Nat) (s : State) : State :=
  armEntry { a with due := min (a.due + width) maxTime, phase := .trail lateness } s

/-- The lead due of the occurrence just completed (R37, R52). -/
def Armed.leadDue (a : Armed) : Nat :=
  match a.phase, a.entry.action with
  | .lead, _ => a.due
  | .trail _, .pulse _ _ width => a.due - width
  | .trail _, .set _ _ => a.due
  | .trail _, .notify => a.due

/-- What an entry does after a complete firing. -/
inductive After where
  | removed
  | again (due : Nat) (kind : EntryKind)
  | waits (kind : EntryKind)
deriving DecidableEq, Repr

/-- A continuation with the skipped count and the remaining repeats that the FIRED record carries (R49). -/
structure Continuation where
  after : After
  skipped : Nat
  remaining : Nat
deriving DecidableEq, Repr

/-- R52: the least b + k × period above HT, k of 1 or more; the skipped count is k − 1 and counts against the repeats. An entry
with no next due at or below 2^64 − 1 is removed. -/
def catchUp (b ht : Nat) (q : Periodic) : Continuation :=
  let k := (ht - b) / q.period + 1
  let next := b + k * q.period
  if maxTime < next then ⟨.removed, k - 1, 0⟩
  else if q.repeats = 0 then ⟨.again next (.timed (some q)), k - 1, 0⟩
  else if q.repeats ≤ k then ⟨.removed, k - 1, 0⟩
  else ⟨.again next (.timed (some { q with repeats := q.repeats - k })), k - 1, q.repeats - k⟩

/-- R114: an EDGE entry goes back to its queue while it has rearm left; 65535 means endless. -/
def rearmed (pin : Pin) (ed : Edge) (offset rearm : Nat) : Continuation :=
  if rearm = 0 then ⟨.removed, 0, 0⟩
  else if rearm = 65535 then ⟨.waits (.edge pin ed offset 65535), 0, 65535⟩
  else ⟨.waits (.edge pin ed offset (rearm - 1)), 0, rearm - 1⟩

/-- The continuation of a complete firing at this HT count (R52, R53, R114). -/
def Armed.continuation (a : Armed) (ht : Nat) : Continuation :=
  match a.entry.kind with
  | .timed none => ⟨.removed, 0, 0⟩
  | .timed (some q) => catchUp a.leadDue ht q
  | .edge pin ed offset rearm => rearmed pin ed offset rearm

/-- The continuation carried out: the entry has been taken off the armed list. -/
def continueEntry (a : Armed) (c : Continuation) (s : State) : State :=
  match c.after with
  | .removed => s
  | .again due kind => armEntry ⟨{ a.entry with kind := kind }, due, .lead⟩ s
  | .waits kind => waitEntry { a.entry with kind := kind } s

/-- The lateness a FIRED record carries: for a PULSE the greater of the lead lateness and that of the TRAIL (R49). -/
def Armed.carriedLateness (a : Armed) (lateness : Nat) : Nat :=
  match a.phase with
  | .lead => lateness
  | .trail leadLateness => max leadLateness lateness

def Phase.name : Phase → PhaseName
  | .lead => .lead
  | .trail _ => .trail

/-- R49: the FIRED record, when the entry's report field is yes; the lateness saturates at 32 bits and the skipped count at
16 bits (R49, R123). -/
def firedRecord (a : Armed) (lateness : Nat) (c : Continuation) (s : State) : State :=
  if a.entry.report then
    let l := a.carriedLateness lateness
    post a.entry.owner
      (stamped s (.fired a.entry.tag a.entry.slot a.phase.name (min l 4294967295) (min c.skipped 65535) c.remaining)
        (decide (0 < l)) s.isLocked) s
  else s

/-- R50: the entry's vector of its owner, raised at a complete firing. -/
def entryRaise (a : Armed) (s : State) : State :=
  match a.entry.vector with
  | none => s
  | some v => raiseVec a.entry.owner v s

/-- A complete firing after its drive: continuation, FIRED record, raise and LATE_FIRE, in the order of R54. -/
def completeFiring (a : Armed) (lateness : Nat) (s : State) : State :=
  let c := a.continuation s.time.ht
  lateFire a lateness (entryRaise a (firedRecord a lateness c (continueEntry a c s)))

/-- One expiry of an entry taken off the head of the armed list, in the order of R54. -/
def expireOne (a : Armed) (lateness : Nat) (s : State) : State :=
  let s1 := expiryDrive a s
  match a.entry.action, a.phase with
  | .pulse _ _ width, .lead => lateFire a lateness (reinsertTrail a width lateness s1)
  | .pulse _ _ _, .trail _ => completeFiring a lateness s1
  | .set _ _, _ => completeFiring a lateness s1
  | .notify, _ => completeFiring a lateness s1

/-- The expiries of one event: heads are taken while the schedule is in RUN and the head's due is at or before the HT count
(R45, R46), at most `fuel` of them; with the number taken. `late` tells a late expiry, whose lateness is HT minus the due, from
an expiry at the advance that reaches its due, whose lateness is 0. -/
def expireDue (late : Bool) : Nat → State → State × Nat
  | 0, s => (s, 0)
  | fuel + 1, s =>
    match s.sched.armed with
    | [] => (s, 0)
    | a :: rest =>
      if s.sched.held = false ∧ a.due ≤ s.time.ht then
        let lateness := if late then s.time.ht - a.due else 0
        let s1 := expireOne a lateness { s with sched := { s.sched with armed := rest } }
        let (s2, n) := expireDue late fuel s1
        (s2, n + 1)
      else (s, 0)

/-- Every expiry that is due: each ARMED entry expires at most twice at one event, as LEAD and as TRAIL, since a periodic
re-insertion has its due beyond HT (R46, R52). -/
def takeDue (late : Bool) (s : State) : State × Nat := expireDue late (2 * s.sched.armed.length) s

/-- An expiry is due: the schedule is in RUN and HT has reached the due of the head (R45). -/
def State.expiryDue (s : State) : Bool :=
  !s.sched.held && match s.sched.armed with
    | [] => false
    | a :: _ => decide (a.due ≤ s.time.ht)

/-! ## Arming by an edge (R111, R112) -/

/-- The first element of a list that meets a test, and the list without it. -/
def takeFirst (q : Entry → Bool) : List Entry → Option (Entry × List Entry)
  | [] => none
  | e :: es =>
    if q e then some (e, es)
    else
      match takeFirst q es with
      | none => none
      | some (x, rest) => some (x, e :: rest)

/-- The offset of an EDGE entry (R37). -/
def Entry.offset (e : Entry) : Nat :=
  match e.kind with
  | .timed _ => 0
  | .edge _ _ offset _ => offset

/-- R111: the oldest entry of the owner's queue leaves it and goes on the armed list, due at the stamp plus its offset. -/
def armOldest (pin : Pin) (ed : Edge) (stamp : Nat) (o : Port) (s : State) : State :=
  match takeFirst (Entry.inQueue o pin ed) s.sched.waiting with
  | none => s
  | some (e, rest) =>
    armEntry ⟨e, min (stamp + e.offset) maxTime, .lead⟩
      { s with sched := { s.sched with waiting := rest } }

/-- R111: the four owners' queues in port order. -/
def armQueues (pin : Pin) (ed : Edge) (stamp : Nat) : List Port → State → State
  | [], s => s
  | o :: os, s => armQueues pin ed stamp os (armOldest pin ed stamp o s)

/-- An edge arrival: the armings, and then in RUN the expiries already due (R111, R112). -/
def edgeArrival (pin : Pin) (ed : Edge) (stamp : Nat) (s : State) : State :=
  (takeDue true (armQueues pin ed stamp allPorts s)).1

/-! ## Purges (R67, R69) -/

/-- The entry is this port's and drives this pin. -/
def Entry.drives (p : Port) (pin : Pin) (e : Entry) : Bool :=
  decide (e.owner = p) && decide (e.action.outPin = some pin)

/-- The CANCELLED records of a purge, one after another (R67, R129). -/
def postCancelled (reason : Reason) : List Entry → State → State
  | [], s => s
  | e :: es, s =>
    postCancelled reason es (post e.owner (plainRecord s (.cancelled e.tag e.slot reason)) s)

/-- The entries a claim-loss notice removes, in the order of SCHEDULE LIST (R67). -/
def purged (p : Port) (pin : Pin) (c : Schedule) : List Entry :=
  (c.armed.map (·.entry)).filter (Entry.drives p pin) ++ (c.waitingOf p).filter (Entry.drives p pin)

/-- A claim-loss notice: every entry of the port on the pin is removed, with a CANCELLED record each (R67). -/
def purgePin (p : Port) (pin : Pin) (reason : Reason) (s : State) : State :=
  postCancelled reason (purged p pin s.sched)
    { s with sched := { s.sched with
        armed := s.sched.armed.filter fun a => !(a.entry.drives p pin)
        waiting := s.sched.waiting.filter fun e => !(e.drives p pin) } }

/-- A port-reset notice: every live entry of the port is removed, without records (R69). -/
def removeEntriesOf (p : Port) (s : State) : State :=
  { s with sched := { s.sched with
      armed := s.sched.armed.filter fun a => decide (a.entry.owner ≠ p)
      waiting := s.sched.waiting.filter fun e => decide (e.owner ≠ p) } }

end Sys2Proof.Machine
end

