-- ==== Sys2Proof/Machine/Operands.lean ====
section
/-! DEFINITION. Reading the argument bytes of the requests (R203): each reader answers none where a field is out of its range or
a byte has no defined code (R201). The check of the argument length stands in each request's own rule. -/

namespace Sys2Proof.Machine

/-- 2^62: an absolute hub time in a request must be below it (R15). -/
def timeLimit : Nat := 2 ^ 62

/-- 2^40: the greatest period and the greatest edge offset (R37). -/
def spanLimit : Nat := 2 ^ 40

/-- Flags byte: period present in bit 0 (R203). -/
def hasPeriod (flags : Nat) : Bool := decide (flags % 2 = 1)

/-- Flags byte: vector present in bit 1 (R203). -/
def hasVector (flags : Nat) : Bool := decide (flags / 2 % 2 = 1)

/-- Flags byte: report in bit 2 (R203). -/
def hasReport (flags : Nat) : Bool := decide (flags / 4 % 2 = 1)

/-- The number of action field bytes for an action code; none for a code with no action (R203). -/
def actionLength : Nat → Option Nat
  | 0 => some 2
  | 1 => some 6
  | 2 => some 0
  | _ => none

/-- The action fields that begin at byte `off`: out pin 0 to 23, level 0 or 1, width 100 to 4,294,967,295 (R37, R42). -/
def readAction (code : Nat) (args : List Byte) (off : Nat) : Option Action :=
  match code with
  | 0 => do
    let pin ← pinOfCode (fld args off 1)
    let level ← boolOfCode (fld args (off + 1) 1)
    some (.set pin level)
  | 1 => do
    let pin ← pinOfCode (fld args off 1)
    let level ← boolOfCode (fld args (off + 1) 1)
    let width := fld args (off + 2) 4
    if 100 ≤ width then some (.pulse pin level width) else none
  | 2 => some .notify
  | _ => none

/-- The period and repeats that begin at byte `off`, when present: period 1,000 to 2^40, and for a PULSE at least the width plus
100 (R42). -/
def readPeriodic (present : Bool) (action : Action) (args : List Byte) (off : Nat) : Option (Option Periodic) :=
  if present then
    let period := fld args off 8
    let long : Bool :=
      match action with
      | .pulse _ _ width => decide (width + 100 ≤ period)
      | .set _ _ => true
      | .notify => true
    if 1000 ≤ period ∧ period ≤ spanLimit ∧ long then some (some ⟨period, fld args (off + 8) 2⟩) else none
  else some none

/-- The vector at byte `off`, when present: 0 to 7 (R42). -/
def readVector (present : Bool) (args : List Byte) (off : Nat) : Option (Option VecNo) :=
  if present then (vecOfCode (fld args off 1)).map some else some none

/-- The report field of an entry: yes for every NOTIFY entry (R41, R108). -/
def reportOf (action : Action) (flags : Nat) : Bool :=
  match action with
  | .notify => true
  | .set _ _ => hasReport flags
  | .pulse _ _ _ => hasReport flags

/-- What a SCHEDULE AT or SCHEDULE ON EDGE asks for, apart from its due. -/
structure Admission where
  tag : Byte
  action : Action
  kind : EntryKind
  report : Bool
  vector : Option VecNo
deriving DecidableEq, Repr

/-- Check 1 of R42: the argument length that the action and the flags call for; none when the action has no code. -/
def scheduleAtLength (args : List Byte) : Option Nat :=
  (actionLength (fld args 1 1)).map fun n =>
    11 + n + (if hasPeriod (fld args 2 1) then 10 else 0) + (if hasVector (fld args 2 1) then 1 else 0)

/-- Check 3 of R42, and the entry's fields when it passes (R41). A spare bit of the flags byte must be 0 (R201). -/
def readScheduleAt (args : List Byte) : Option Admission := do
  let flags := fld args 2 1
  let code := fld args 1 1
  let action ← readAction code args 11
  let n ← actionLength code
  let periodic ← readPeriodic (hasPeriod flags) action args (11 + n)
  let vector ← readVector (hasVector flags) args (11 + n + (if hasPeriod flags then 10 else 0))
  if flags < 8 then
    some ⟨b1 (fld args 0 1), action, .timed periodic, reportOf action flags, vector⟩
  else none

/-- Check 1 of R109: the argument length that the action and the vector flag call for. -/
def scheduleOnEdgeLength (args : List Byte) : Option Nat :=
  (actionLength (fld args 1 1)).map fun n => 15 + n + (if hasVector (fld args 2 1) then 1 else 0)

/-- Check 2 of R109, and the entry's fields when it passes (R108). -/
def readScheduleOnEdge (args : List Byte) : Option Admission := do
  let flags := fld args 2 1
  let code := fld args 1 1
  let inPin ← pinOfCode (fld args 3 1)
  let ed ← edgeOfCode (fld args 4 1)
  let offset := fld args 5 8
  let rearm := fld args 13 2
  let action ← readAction code args 15
  let n ← actionLength code
  let vector ← readVector (hasVector flags) args (15 + n)
  if flags < 8 ∧ hasPeriod flags = false ∧ offset ≤ spanLimit then
    some ⟨b1 (fld args 0 1), action, .edge inPin ed offset rearm, reportOf action flags, vector⟩
  else none

/-- The reference configuration of a REF CONFIGURE, when each field is in range (R31). -/
def readRefConfig (args : List Byte) : Option RefConfig := do
  let enabled ← boolOfCode (fld args 0 1)
  let tref := fld args 1 4
  let ed ← edgeOfCode (fld args 5 1)
  let stepEnable ← boolOfCode (fld args 6 1)
  if 1000 ≤ tref ∧ tref ≤ 1000000 then some ⟨enabled, tref, ed, stepEnable⟩ else none

/-- Each of the five thresholds lies from 1 to 100,000,000 (R33). -/
def Profile.inRange (q : Profile) : Bool :=
  [q.lockIn, q.lockOut, q.trkIn, q.acqIn, q.stepTh].all fun v => decide (1 ≤ v) && decide (v ≤ 100000000)

/-- LOCK_IN < LOCK_OUT ≤ TRK_IN < ACQ_IN ≤ STEP_TH (R33). -/
def Profile.ordered (q : Profile) : Bool :=
  decide (q.lockIn < q.lockOut) && decide (q.lockOut ≤ q.trkIn) && decide (q.trkIn < q.acqIn) &&
    decide (q.acqIn ≤ q.stepTh)

/-- Five thresholds of four bytes each that begin at byte `off`. -/
def profileAt (args : List Byte) (off : Nat) : Profile :=
  ⟨fld args off 4, fld args (off + 4) 4, fld args (off + 8) 4, fld args (off + 12) 4, fld args (off + 16) 4⟩

/-- The map entry of a PIN CONFIGURE, when each field is in range (R75). -/
def readPinMap (args : List Byte) : Option (Pin × PinMap) := do
  let pin ← pinOfCode (fld args 0 1)
  let dir ← Direction.ofCode (fld args 1 1)
  let safe ← boolOfCode (fld args 2 1)
  let debounce := fld args 3 2
  if debounce ≤ 1023 then some (pin, ⟨dir, safe, debounce⟩) else none

/-- A lease period: 0 or 10 to 60,000 ms (R172, R192). -/
def leaseInRange (ms : Nat) : Bool := decide (ms = 0) || (decide (10 ≤ ms) && decide (ms ≤ 60000))

/-- Every element of a list is a yes/no byte. -/
def allBool (bs : List Byte) : Bool := bs.all fun b => decide (b.toNat ≤ 1)

/-- Byte `k` of the arguments is 1. -/
def flagAt (args : List Byte) (k : Nat) : Bool := decide (fld args k 1 = 1)

end Sys2Proof.Machine
end

