-- ==== Sys2Proof/Machine/Time.lean ====
section
/-! DEFINITION. The time counter: advances (R2, R3), forward steps with their notices (R7 to R9, R66, R98), and the time requests
(R10 to R13). -/

namespace Sys2Proof.Machine

/-! ## Advances -/

/-- The increment of one XIN cycle in units of 2^-32 ns: 40 × (10^9 + F + S) / 10^9 ns, rounded toward zero (R2). -/
def increment (f s : Int) : Nat := (Int.tdiv (40 * (1000000000 + f + s) * 4294967296) 1000000000).toNat

/-- A count and its fraction advanced by an increment; beyond 2^64 − 1 the count saturates with the fraction at 0 (R1). -/
def addTime (count frac inc : Nat) : Nat × Nat :=
  let total := count * 4294967296 + frac + inc
  if total / 4294967296 ≤ maxTime then (total / 4294967296, total % 4294967296) else (maxTime, 0)

/-- One advance of HT and RT (R2, R3). -/
def TimeCounter.advance (inc : Nat) (t : TimeCounter) : TimeCounter :=
  let h := addTime t.ht t.htFrac inc
  let r := addTime t.rt t.rtFrac inc
  { t with ht := h.1, htFrac := h.2, rt := r.1, rtFrac := r.2 }

/-- ADVANCE: HT and RT advance at every cycle of XIN while supply is applied (R2, R5). -/
def execAdvance (s : State) : Host.Outcome State Fault Refusal :=
  .next (if s.powered then { s with time := s.time.advance (increment s.disc.f s.disc.s) } else s)

/-! ## Forward steps -/

/-- R8: d is added to the HT count, saturating as R1 states; the fraction is kept otherwise; the epoch changes by one. -/
def TimeCounter.step (d : Nat) (t : TimeCounter) : TimeCounter :=
  if t.ht + d ≤ maxTime then { t with ht := t.ht + d, epoch := t.epoch + 1 }
  else { t with ht := maxTime, htFrac := 0, epoch := t.epoch + 1 }

/-- R98: the step mark of every running debounce window is set. -/
def markWindows (s : State) : State :=
  { s with watch := s.watch.map fun o =>
      o.map fun w => { w with window := w.window.map fun d => { d with stepMark := true } } }

/-- The schedule's taking of a step notice (R66). -/
def scheduleStep (s : State) : State := (takeDue true s).1

/-- The step notices of R9: the fault log's and the schedule's have no order between them, so a free value tells which is taken
first where both do something; the capture unit's touches no state of theirs. -/
def stepNotices (amount : Nat) (s : State) : State :=
  let s1 := markWindows s
  let fault := occur .timeStep none (.stepAmount amount)
  if s1.expiryDue then
    let (faultFirst, s2) := drawFirst s1
    if faultFirst then scheduleStep (fault s2) else fault (scheduleStep s2)
  else fault s1

/-- A forward step of amount d, with its notices; the reported amount is the actual change of the HT count (R8, R9). -/
def forwardStep (d : Nat) (s : State) : State :=
  let t := s.time.step d
  stepNotices (t.ht - s.time.ht) { s with time := t }

/-! ## Requests -/

/-- TIME READ (R10). -/
def timeRead (args : List Byte) (s : State) : Reply :=
  if args.length ≠ 0 then refuse s .badArgument
  else ok s (beN 8 s.time.ht ++ beN 8 s.time.rt ++ beN 2 s.time.epoch.toNat ++
    [b1 s.disc.state.code, bBool s.isLocked])

/-- TIME READ SCALED (R11). -/
def timeReadScaled (args : List Byte) (s : State) : Reply :=
  if args.length ≠ 1 then refuse s .badArgument
  else if 32 < fld args 0 1 then refuse s .badArgument
  else ok s ([b1 (fld args 0 1)] ++ beN 4 (s.time.ht / 2 ^ fld args 0 1))

/-- TIME SET: the checks of R12 in order, then R13. -/
def timeSet (p : Port) (args : List Byte) (s : State) : Reply :=
  let value := fld args 0 8
  if args.length ≠ 8 then refuse s .badArgument
  else if !s.holdsSettings p then refuse s .notPermitted
  else if timeLimit ≤ value then refuse s .badTime
  else if s.disc.state ≠ .freerun ∧ s.disc.state ≠ .search then refuse s .wrongState
  else if value < s.time.ht then ⟨s, .backward, beN 8 s.time.ht⟩
  else
    let s1 := if value = s.time.ht then s else forwardStep (value - s.time.ht) s
    ok s1 (beN 8 s.time.ht ++ beN 8 s1.time.ht ++ beN 2 s1.time.epoch.toNat)

def execTimeRead (p : Port) (args : List Byte) (s : State) : Host.Outcome State Fault Refusal :=
  .next (request p 0x10#8 s (timeRead args))

def execTimeReadScaled (p : Port) (args : List Byte) (s : State) : Host.Outcome State Fault Refusal :=
  .next (request p 0x11#8 s (timeReadScaled args))

def execTimeSet (p : Port) (args : List Byte) (s : State) : Host.Outcome State Fault Refusal :=
  .next (request p 0x12#8 s (timeSet p args))

end Sys2Proof.Machine
end

