-- ==== Sys2Proof/Machine/Discipline.lean ====
section
/-! DEFINITION. The discipline unit: reference edges (R16 to R19), misses and loss (R20, R21), the state machine with its windows
(R22 to R28), DISCIPLINE records (R29), and the discipline requests (R31, R33, R34). -/

namespace Sys2Proof.Machine

/-- Tref in ns (02_reference_discipline.md, State of the discipline unit). -/
def RefConfig.trefNs (c : RefConfig) : Nat := c.trefUs * 1000

/-- A value limited to a range (00_scope.md, Arithmetic). -/
def clamp (v lo hi : Int) : Int := max lo (min v hi)

/-! ## Reports of a state change -/

/-- R29: the DISCIPLINE record to each selecting ring and the DISCIPLINE raise of those ports; the LOCKED flag is set when the
new state is LOCKED (R124). -/
def reportChange (old new : DiscState) (s : State) : State :=
  let ports := disciplineSelectors s
  raiseClassAll .discipline ports
    (postAll (stamped s (.discipline old new s.disc.lastE) false (decide (new = .locked))) ports s)

/-- A move to a state; a move to a different one is reported (R29). -/
def enterState (new : DiscState) (s : State) : State :=
  let old := s.disc.state
  let s1 := { s with disc := { s.disc with state := new } }
  if old = new then s1 else reportChange old new s1

/-! ## Reference edges -/

/-- R19: the phase error of an accepted edge with stamp c. -/
def phaseError (c trefNs : Nat) : Int :=
  let r := c % trefNs
  if r ≤ trefNs / 2 then (r : Int) else (r : Int) - (trefNs : Int)

/-- R17: what an accepted edge does before the present state handles it. The next miss falls 1.5 Tref after it (R20). -/
def acceptEdge (s : State) : State :=
  { s with disc := { s.disc with
      refPoint := s.time.rt
      firstEdge := false
      nextMiss := s.time.rt + 3 * s.disc.cfg.trefNs / 2
      missCount := 0
      lastEBefore := s.disc.lastE
      lastE := phaseError s.time.ht s.disc.cfg.trefNs } }

/-- The frequency correction f of a window that ends: its phase drift over n reference intervals, less the drift S made (R24,
R26). -/
def freqCorrection (e1 eN : Int) (n trefNs : Nat) (s : Int) : Int :=
  Int.tdiv ((eN - e1) * 1000000000) ((n : Int) * trefNs) - s

/-- The slew trim after a window whose last phase error is eN, spread over m reference intervals (R24, R26). -/
def slewTrim (eN : Int) (m trefNs : Nat) : Int :=
  clamp (Int.tdiv (-eN * 1000000000) ((m : Int) * trefNs)) (-50000) 50000

/-- The trims of a window end: n intervals for f, m for S; the window empties. -/
def Discipline.endWindow (w : List Int) (n m : Nat) (d : Discipline) : Discipline :=
  let e1 := w.headD 0
  let eN := w.getLastD 0
  { d with
    f := clamp (d.f - freqCorrection e1 eN n d.cfg.trefNs d.s) (-200000) 200000
    s := slewTrim eN m d.cfg.trefNs
    window := [] }

/-- All phase errors of a window lie within a bound. -/
def allWithin (w : List Int) (bound : Nat) : Bool := w.all fun e => decide (e.natAbs ≤ bound)

/-- The window and the pair count emptied. -/
def emptyWindow (s : State) : State := { s with disc := { s.disc with window := [], pairCount := 0 } }

/-- R22: the second accepted edge of a run ends SEARCH. -/
def edgeInSearch (s : State) : State :=
  if s.disc.pairCount = 0 then { s with disc := { s.disc with pairCount := 1 } }
  else enterState .acquire (emptyWindow s)

/-- R23: the second accepted edge of a run ends HOLDOVER, judged on its own phase error. -/
def edgeInHoldover (e : Int) (s : State) : State :=
  if s.disc.pairCount = 0 then { s with disc := { s.disc with pairCount := 1 } }
  else enterState (if e.natAbs ≤ s.disc.profile.acqIn then .track else .acquire) (emptyWindow s)

/-- R24, R25: the fourth phase error ends the ACQUIRE window. -/
def edgeInAcquire (e : Int) (s : State) : State :=
  let w := s.disc.window ++ [e]
  if w.length < 4 then { s with disc := { s.disc with window := w } }
  else
    let s1 := { s with disc := s.disc.endWindow w 3 8 }
    if e < -(s.disc.profile.stepTh : Int) ∧ s.disc.cfg.stepEnable then
      forwardStep (-e).toNat { s1 with disc := { s1.disc with s := 0 } }
    else if allWithin w s.disc.profile.trkIn then enterState .track s1
    else s1

/-- A phase error put into a TRACK or LOCKED window; the sixteenth ends it (R26, R27). The state is LOCKED next, when all
sixteen lie within LOCK_IN; otherwise it stays. -/
def intoLongWindow (e : Int) (s : State) : State :=
  let w := s.disc.window ++ [e]
  if w.length < 16 then { s with disc := { s.disc with window := w } }
  else
    let s1 := { s with disc := s.disc.endWindow w 15 64 }
    if allWithin w s.disc.profile.lockIn then enterState .locked s1 else s1

/-- R26. -/
def edgeInTrack (e : Int) (s : State) : State :=
  if s.disc.profile.acqIn < e.natAbs then
    enterState .acquire { s with disc := { s.disc with window := [] } }
  else intoLongWindow e s

/-- R27: the departure from LOCKED. The UNLOCK occurrence and the DISCIPLINE record have no order between them (R29), so a free
value tells which is first where a ring selects DISCIPLINE. -/
def unlock (e : Int) (s : State) : State :=
  let s1 := { s with disc := { s.disc with
    state := .track, window := [], unlockSeen := .fill 4 true } }
  let fault := occur .unlock none (.phaseError e)
  let report := reportChange .locked .track
  if (disciplineSelectors s1).isEmpty then fault s1
  else
    let (faultFirst, s2) := drawFirst s1
    if faultFirst then report (fault s2) else fault (report s2)

/-- R27. -/
def edgeInLocked (e : Int) (s : State) : State :=
  if s.disc.profile.lockOut < e.natAbs then unlock e s else intoLongWindow e s

/-- The handling of an accepted edge by the present state (R22 to R27). -/
def handleEdge (s : State) : State :=
  match s.disc.state with
  | .freerun => s
  | .search => edgeInSearch s
  | .acquire => edgeInAcquire s.disc.lastE s
  | .track => edgeInTrack s.disc.lastE s
  | .locked => edgeInLocked s.disc.lastE s
  | .holdover => edgeInHoldover s.disc.lastE s

/-- R17, R18: an edge is accepted when first-edge pending is set or at least Tref/2 has passed since the reference point. -/
def State.edgeAccepted (s : State) : Bool :=
  s.disc.firstEdge || decide (s.disc.cfg.trefNs / 2 ≤ s.time.rt - s.disc.refPoint)

/-- An active edge is taken in every state except FREERUN, and only a change that is the configured edge is one (R16). -/
def State.takesEdge (change : Edge) (s : State) : Bool :=
  s.powered && decide (s.disc.state ≠ .freerun) && decide (s.disc.cfg.edge = change)

/-- ACTIVE_EDGE: accepted (R17) or a runt (R18). -/
def activeEdge (change : Edge) (s : State) : State :=
  if s.takesEdge change then
    if s.edgeAccepted then handleEdge (acceptEdge s)
    else occur .refRunt none (.interval (s.time.rt - s.disc.refPoint)) s
  else s

def execActiveEdge (change : Edge) (s : State) : Host.Outcome State Fault Refusal :=
  .next (activeEdge change s)

/-! ## Misses and loss -/

/-- The state after a reference loss (R21). -/
def DiscState.afterLoss : DiscState → DiscState
  | .freerun => .freerun
  | .search => .search
  | .acquire => .search
  | .track => .holdover
  | .locked => .holdover
  | .holdover => .holdover

/-- The state change of a reference loss: S becomes 0 and F is kept (R21). -/
def loseReference (s : State) : State :=
  enterState s.disc.state.afterLoss { s with disc := { s.disc with s := 0 } }

/-- R21: REF_LOST is recorded, in the state at the miss, and the state then changes. -/
def referenceLoss (s : State) : State := loseReference (occur .refLost none (.missCount 3) s)

/-- RT has reached the miss point, in a state other than FREERUN (R20). -/
def State.missDue (s : State) : Bool :=
  s.powered && decide (s.disc.state ≠ .freerun) && decide (s.disc.nextMiss ≤ s.time.rt)

/-- What every miss does; the next one falls Tref later (R20). -/
def countMiss (s : State) : State :=
  { s with disc := { s.disc with
      missCount := min 255 (s.disc.missCount + 1)
      window := []
      pairCount := 0
      nextMiss := s.disc.nextMiss + s.disc.cfg.trefNs } }

/-- MISS (R20, R21). -/
def miss (s : State) : State :=
  if s.missDue then
    let s1 := countMiss s
    if s.disc.missCount = 2 then referenceLoss s1 else s1
  else s

def execMiss (s : State) : Host.Outcome State Fault Refusal := .next (miss s)

/-! ## Requests -/

/-- R17: when the reference becomes enabled, the reference point is set to RT and first-edge pending is set. -/
def Discipline.enable (rt : Nat) (d : Discipline) : Discipline :=
  { d with refPoint := rt, firstEdge := true, nextMiss := rt + 3 * d.cfg.trefNs / 2 }

/-- The last accepted edge was taken at this RT: no advance lies between. -/
def Discipline.edgeNow (rt : Nat) (d : Discipline) : Bool := !d.firstEdge && decide (d.refPoint = rt)

/-- A passing REF CONFIGURE (R31). Last e keeps its value (R31), but for an edge taken first at the same time, whose effect on last e
is undone (R32); to read R32 as the exception to R31 is the model's choice (notes/assumptions/28.md). -/
def refConfigured (c : RefConfig) (s : State) : State :=
  let e := if s.disc.edgeNow s.time.rt then s.disc.lastEBefore else s.disc.lastE
  let d := { s.disc with cfg := c, window := [], pairCount := 0, missCount := 0, s := 0, lastE := e }
  let s1 := { s with disc := if c.enabled then d.enable s.time.rt else d }
  enterState (if c.enabled then .search else .freerun) s1

/-- REF CONFIGURE: the checks of R31 in order. -/
def refConfigure (p : Port) (args : List Byte) (s : State) : Reply :=
  if args.length ≠ 7 then refuse s .badArgument
  else if !s.holdsSettings p then refuse s .notPermitted
  else
    match readRefConfig args with
    | none => refuse s .badArgument
    | some c =>
      let s1 := refConfigured c s
      ok s1 [b1 s1.disc.state.code]

/-- DISCIPLINE PROFILE (R33). -/
def disciplineProfile (p : Port) (args : List Byte) (s : State) : Reply :=
  let q := profileAt args 0
  if args.length ≠ 20 then refuse s .badArgument
  else if !s.holdsSettings p then refuse s .notPermitted
  else if !(q.inRange && q.ordered) then refuse s .badArgument
  else ok { s with disc := { s.disc with profile := q } } []

/-- The window fill of a DISCIPLINE STATUS (R34). -/
def Discipline.fillShown (d : Discipline) : Nat :=
  match d.state with
  | .freerun => 0
  | .search => d.pairCount
  | .holdover => d.pairCount
  | .acquire => d.window.length
  | .track => d.window.length
  | .locked => d.window.length

/-- DISCIPLINE STATUS (R34): the requesting port's unlock-seen flag is cleared. -/
def disciplineStatus (p : Port) (args : List Byte) (s : State) : Reply :=
  if args.length ≠ 0 then refuse s .badArgument
  else ok { s with disc := { s.disc with unlockSeen := s.disc.unlockSeen.set p false } }
    ([b1 s.disc.state.code] ++ beInt 4 s.disc.f ++ beInt 4 s.disc.s ++ beInt 4 s.disc.lastE ++
      [b1 s.disc.missCount, b1 s.disc.fillShown, bBool (s.disc.unlockSeen.get p)])

def execRefConfigure (p : Port) (args : List Byte) (s : State) : Host.Outcome State Fault Refusal :=
  .next (request p 0x18#8 s (refConfigure p args))

def execDisciplineProfile (p : Port) (args : List Byte) (s : State) : Host.Outcome State Fault Refusal :=
  .next (request p 0x19#8 s (disciplineProfile p args))

def execDisciplineStatus (p : Port) (args : List Byte) (s : State) : Host.Outcome State Fault Refusal :=
  .next (request p 0x1A#8 s (disciplineStatus p args))

end Sys2Proof.Machine
end

