-- ==== Sys2Proof/Machine/Schedule.lean ====
section
/-! DEFINITION. The schedule's events and requests: EXPIRY (R45), HOLD_NOTICE (R62), admissions (R41 to R43, R108 to R110), CANCEL,
ENTRY QUERY and SCHEDULE LIST (R56 to R59, R116), SCHEDULE CONFIGURE, HOLD and RESUME (R60, R61, R64). -/

namespace Sys2Proof.Machine

/-! ## Events -/

/-- EXPIRY: in RUN, the head whose due HT has reached and each following one, with lateness 0 (R45). -/
def expiry (s : State) : State := if s.powered && s.expiryDue then (takeDue false s).1 else s

def execExpiry (s : State) : Host.Outcome State Fault Refusal := .next (expiry s)

/-- HOLD_NOTICE: the schedule takes one hold notice that the fault log has handed (R62). -/
def takeHoldNotice (s : State) : State :=
  if s.powered && decide (0 < s.sched.holdNotices) then
    enterHeld { s with sched := { s.sched with holdNotices := s.sched.holdNotices - 1 } }
  else s

def execHoldNotice (s : State) : Host.Outcome State Fault Refusal := .next (takeHoldNotice s)

/-! ## Admission -/

/-- The pin is OUT in the working pin map. -/
def State.isOut (s : State) (pin : Pin) : Bool := decide ((s.pins.get pin).map.dir = .output)

/-- The pin is IN in the working pin map. -/
def State.isIn (s : State) (pin : Pin) : Bool := decide ((s.pins.get pin).map.dir = .input)

/-- The port is the claim holder of the pin. -/
def State.holdsPin (s : State) (p : Port) (pin : Pin) : Bool := decide ((s.pins.get pin).holder = some p)

/-- Checks 4 to 8 of R42 and R109: out pin OUT, out pin claimed, tag free, a slot free, holdings below the quota; the slot when
all pass. -/
def admissionChecks (p : Port) (a : Admission) (s : State) : Except Status Slot :=
  match a.action.outPin with
  | some pin =>
    if !s.isOut pin then .error .wrongDirection
    else if !s.holdsPin p pin then .error .notOwner
    else tagAndSlot
  | none => tagAndSlot
where
  tagAndSlot : Except Status Slot :=
    if s.sched.tagLive p a.tag then .error .tagInUse
    else
      match s.sched.freeSlot with
      | none => .error .full
      | some slot => if s.settings.quotas.get p ≤ s.sched.holdings p then .error .quota else .ok slot

/-- The entry that an admission creates in a slot (R43, R110). -/
def Admission.entry (a : Admission) (p : Port) (slot : Slot) : Entry :=
  ⟨slot, p, a.tag, a.action, a.kind, a.report, a.vector⟩

/-- R43: the entry goes on the armed list; in RUN a due at or before HT expires at the same event. -/
def placeTimed (e : Entry) (due : Nat) (s : State) : State :=
  let s1 := armEntry ⟨e, due, .lead⟩ s
  if due ≤ s.time.ht then (takeDue true s1).1 else s1

/-- SCHEDULE AT: the checks of R42 in order, then R43. -/
def scheduleAt (p : Port) (args : List Byte) (s : State) : Reply :=
  let due := fld args 3 8
  if scheduleAtLength args ≠ some args.length then refuse s .badArgument
  else if timeLimit ≤ due then refuse s .badTime
  else
    match readScheduleAt args with
    | none => refuse s .badArgument
    | some a =>
      match admissionChecks p a s with
      | .error st => refuse s st
      | .ok slot => ok (placeTimed (a.entry p slot) due s) [b1 slot.val]

/-- SCHEDULE ON EDGE: the checks of R109 in order, then R110. -/
def scheduleOnEdge (p : Port) (args : List Byte) (s : State) : Reply :=
  if scheduleOnEdgeLength args ≠ some args.length then refuse s .badArgument
  else
    match readScheduleOnEdge args with
    | none => refuse s .badArgument
    | some a =>
      let e0 := a.entry p 0
      if !(e0.inPin.any fun pin => s.isIn pin) then refuse s .wrongDirection
      else
        match admissionChecks p a s with
        | .error st => refuse s st
        | .ok slot => ok (waitEntry (a.entry p slot) s) [b1 slot.val]

/-! ## CANCEL, ENTRY QUERY, SCHEDULE LIST -/

/-- The entry with this owner and tag. -/
def Entry.named (p : Port) (tag : Byte) (e : Entry) : Bool := decide (e.owner = p) && decide (e.tag = tag)

/-- The port's ARMED entry with a tag. -/
def Schedule.findArmed (c : Schedule) (p : Port) (tag : Byte) : Option Armed :=
  c.armed.find? fun a => a.entry.named p tag

/-- The port's WAITING entry with a tag. -/
def Schedule.findWaiting (c : Schedule) (p : Port) (tag : Byte) : Option Entry :=
  c.waiting.find? (Entry.named p tag)

/-- The port's entry with a tag taken out of the schedule. -/
def removeTag (p : Port) (tag : Byte) (s : State) : State :=
  { s with sched := { s.sched with
      armed := s.sched.armed.filter fun a => !(a.entry.named p tag)
      waiting := s.sched.waiting.filter fun e => !(e.named p tag) } }

/-- R56: the trailing level of a TRAIL is driven in RUN; the other cases make no drive. -/
def cancelDrive (a : Armed) (s : State) : State :=
  match a.phase with
  | .lead => s
  | .trail _ => if s.sched.held then s else expiryDrive a s

/-- CANCEL (R56, R116). -/
def cancel (p : Port) (args : List Byte) (s : State) : Reply :=
  let tag := b1 (fld args 0 1)
  if args.length ≠ 1 then refuse s .badArgument
  else
    match s.sched.findArmed p tag with
    | some a => ok (removeTag p tag (cancelDrive a s)) [b1 a.entry.slot.val, 1, b1 a.phase.code]
    | none =>
      match s.sched.findWaiting p tag with
      | some e => ok (removeTag p tag s) [b1 e.slot.val, 0, 0]
      | none => refuse s .noEntry

/-- The flags byte of an entry in an ENTRY QUERY result (R203). Bits 7 to 3, to which R203 gives no field, are sent as 0: DESIGN
CHOICE (notes/assumptions/30.md). -/
def Entry.flags (e : Entry) : Nat :=
  bitAt 0 (match e.kind with
    | .timed (some _) => true
    | .timed none => false
    | .edge _ _ _ _ => false) +
  bitAt 1 e.vector.isSome + bitAt 2 e.report

/-- The result data of ENTRY QUERY (R58, R203); fields that the entry does not have are 0, absent pins 0xFF (R201). -/
def entryData (e : Entry) (stateCode phaseCode due : Nat) : List Byte :=
  let pinLevelWidth : List Byte :=
    match e.action with
    | .set pin level => [b1 pin.val, bBool level] ++ beN 4 0
    | .pulse pin level width => [b1 pin.val, bBool level] ++ beN 4 width
    | .notify => [0xFF, 0] ++ beN 4 0
  let periodPart : List Byte :=
    match e.kind with
    | .timed (some q) => beN 8 q.period ++ beN 2 q.repeats
    | .timed none => beN 10 0
    | .edge _ _ _ _ => beN 10 0
  let edgePart : List Byte :=
    match e.kind with
    | .timed _ => [0xFF, 0] ++ beN 10 0
    | .edge pin ed offset rearm => [b1 pin.val, b1 (edgeCode ed)] ++ beN 8 offset ++ beN 2 rearm
  [b1 e.slot.val, e.tag, b1 e.kind.code, b1 stateCode, b1 phaseCode, b1 e.action.code, b1 e.flags] ++
    beN 8 due ++ pinLevelWidth ++ periodPart ++ edgePart ++ [b1 ((e.vector.map (·.val)).getD 0)]

/-- ENTRY QUERY (R58, R116). -/
def entryQuery (p : Port) (args : List Byte) (s : State) : Reply :=
  let tag := b1 (fld args 0 1)
  if args.length ≠ 1 then refuse s .badArgument
  else
    match s.sched.findArmed p tag with
    | some a => ok s (entryData a.entry 1 a.phase.code a.due)
    | none =>
      match s.sched.findWaiting p tag with
      | some e => ok s (entryData e 0 0 0)
      | none => refuse s .noEntry

/-- SCHEDULE LIST (R59). -/
def scheduleList (p : Port) (args : List Byte) (s : State) : Reply :=
  if args.length ≠ 0 then refuse s .badArgument
  else
    let armed := (s.sched.armed.map (·.entry)).filter fun e => decide (e.owner = p)
    let waiting := s.sched.waitingOf p
    ok s ([b1 armed.length, b1 waiting.length] ++ (armed ++ waiting).map (·.tag))

/-! ## SCHEDULE CONFIGURE, HOLD, RESUME -/

/-- SCHEDULE CONFIGURE (R60). -/
def scheduleConfigure (p : Port) (args : List Byte) (s : State) : Reply :=
  let value := fld args 0 4
  if args.length ≠ 4 then refuse s .badArgument
  else if !s.holdsSettings p then refuse s .notPermitted
  else if 1000000 < value then refuse s .badArgument
  else ok { s with sched := { s.sched with lateThreshold := value } } (beN 4 value)

/-- HOLD (R61). -/
def hold (p : Port) (args : List Byte) (s : State) : Reply :=
  if args.length ≠ 0 then refuse s .badArgument
  else if !s.holdsSettings p then refuse s .notPermitted
  else ok (enterHeld s) [1]

/-- RESUME (R64). -/
def resume (p : Port) (args : List Byte) (s : State) : Reply :=
  if args.length ≠ 0 then refuse s .badArgument
  else if !s.holdsSettings p then refuse s .notPermitted
  else if s.faults.faultnLow then refuse s .faultActive
  else if s.sched.held then
    let (s1, n) := takeDue true { s with sched := { s.sched with held := false } }
    ok s1 [b1 n]
  else ok s [0]

def execScheduleAt (p : Port) (args : List Byte) (s : State) : Host.Outcome State Fault Refusal :=
  .next (request p 0x20#8 s (scheduleAt p args))

def execScheduleOnEdge (p : Port) (args : List Byte) (s : State) : Host.Outcome State Fault Refusal :=
  .next (request p 0x21#8 s (scheduleOnEdge p args))

def execCancel (p : Port) (args : List Byte) (s : State) : Host.Outcome State Fault Refusal :=
  .next (request p 0x22#8 s (cancel p args))

def execEntryQuery (p : Port) (args : List Byte) (s : State) : Host.Outcome State Fault Refusal :=
  .next (request p 0x23#8 s (entryQuery p args))

def execScheduleList (p : Port) (args : List Byte) (s : State) : Host.Outcome State Fault Refusal :=
  .next (request p 0x24#8 s (scheduleList p args))

def execHold (p : Port) (args : List Byte) (s : State) : Host.Outcome State Fault Refusal :=
  .next (request p 0x25#8 s (hold p args))

def execResume (p : Port) (args : List Byte) (s : State) : Host.Outcome State Fault Refusal :=
  .next (request p 0x26#8 s (resume p args))

def execScheduleConfigure (p : Port) (args : List Byte) (s : State) : Host.Outcome State Fault Refusal :=
  .next (request p 0x27#8 s (scheduleConfigure p args))

end Sys2Proof.Machine
end

