-- ==== Sys2Proof/Machine/Pins.lean ====
section
/-! DEFINITION. The pin unit's requests and its event: PIN CONFIGURE (R75 to R77, R104), PIN CLAIM, PIN RELEASE, PIN WRITE, PIN READ
(R78, R80, R83, R86), and the contention check (R87). -/

namespace Sys2Proof.Machine

/-! ## PIN CONFIGURE -/

/-- R75: a pin is in use when it has a claim holder, a subscription other than NONE, or a live entry that names it. -/
def State.pinInUse (s : State) (pin : Pin) : Bool :=
  (s.pins.get pin).holder.isSome ||
    (allPorts.any fun p => decide ((s.subs.get p).get pin ≠ .none)) ||
    (s.sched.live.any fun e => decide (e.action.outPin = some pin) || decide (e.inPin = some pin))

/-- The watch record of a pin that becomes IN: IDLE, with the level sensed at that event (R104). -/
def Watch.fresh (level : Level) : Watch := ⟨none, level, level⟩

/-- The pin unit's part of a passing PIN CONFIGURE (R76, R77). -/
def PinCell.configure (m : PinMap) (rt : Nat) (held : Bool) (c : PinCell) : PinCell :=
  let c1 := { c with map := m }
  if m.dir = .output then
    if c.map.dir = .output then
      if c.holder = none ∨ held then c1.driveSafe rt else c1
    else PinCell.driveSafe rt { c1 with driven := none }
  else { c1 with driven := none, check := none }

/-- The capture unit's part: a pin that becomes IN gets a watch record, one that is no longer IN loses it (R104). -/
def watchAfter (before after : Direction) (level : Level) (w : Option Watch) : Option Watch :=
  if after = .input then
    if before = .input then w else some (Watch.fresh level)
  else none

/-- A passing PIN CONFIGURE (R76, R77, R104). -/
def pinConfigured (pin : Pin) (m : PinMap) (level : Level) (s : State) : State :=
  { s with
    pins := s.pins.upd pin (PinCell.configure m s.time.rt s.sched.held)
    watch := s.watch.upd pin (watchAfter (s.pins.get pin).map.dir m.dir level) }

/-- The bytes of a map entry in a PIN CONFIGURE result (R203). -/
def pinMapBytes (pin : Pin) (m : PinMap) : List Byte :=
  [b1 pin.val, b1 m.dir.code, bBool m.safe] ++ beN 2 m.debounceUs

/-- PIN CONFIGURE: the checks of R75 in order. -/
def pinConfigure (p : Port) (args : List Byte) (level : Level) (s : State) : Reply :=
  if args.length ≠ 5 then refuse s .badArgument
  else if !s.holdsSettings p then refuse s .notPermitted
  else
    match readPinMap args with
    | none => refuse s .badArgument
    | some (pin, m) =>
      if s.settings.frozen then refuse s .frozen
      else if (s.pins.get pin).map.dir ≠ m.dir ∧ s.pinInUse pin then refuse s .inUse
      else ok (pinConfigured pin m level s) (pinMapBytes pin m)

/-! ## Claims and writes -/

/-- PIN CLAIM: the checks of R78 in order. -/
def pinClaim (p : Port) (args : List Byte) (s : State) : Reply :=
  if args.length ≠ 1 then refuse s .badArgument
  else
    match pinOfCode (fld args 0 1) with
    | none => refuse s .badArgument
    | some pin =>
      if s.leaseExpired p then refuse s .lapsed
      else if !s.isOut pin then refuse s .wrongDirection
      else
        match (s.pins.get pin).holder with
        | some h => if h = p then ok s [b1 pin.val, b1 p.val] else refuseHeldBy s h
        | none =>
          ok { s with pins := s.pins.upd pin fun c => { c with holder := some p } } [b1 pin.val, b1 p.val]

/-- Steps 1 to 3 of a claim loss: the purge, the holder cleared, the safe drive (R80, R81). -/
def loseClaim (p : Port) (pin : Pin) (reason : Reason) (s : State) : State :=
  let s1 := purgePin p pin reason s
  safeDrive pin { s1 with pins := s1.pins.upd pin fun c => { c with holder := none } }

/-- PIN RELEASE (R80). -/
def pinRelease (p : Port) (args : List Byte) (s : State) : Reply :=
  if args.length ≠ 1 then refuse s .badArgument
  else
    match pinOfCode (fld args 0 1) with
    | none => refuse s .badArgument
    | some pin =>
      if !s.holdsPin p pin then refuse s .notOwner
      else ok (loseClaim p pin .released s) [b1 pin.val, b1 (purged p pin s.sched).length]

/-- PIN WRITE: the checks of R83 in order. -/
def pinWrite (p : Port) (args : List Byte) (s : State) : Reply :=
  if args.length ≠ 2 then refuse s .badArgument
  else
    match pinOfCode (fld args 0 1), boolOfCode (fld args 1 1) with
    | some pin, some level =>
      if !s.isOut pin then refuse s .wrongDirection
      else if !s.holdsPin p pin then refuse s .notOwner
      else if s.sched.held then refuse s .wrongState
      else ok (levelDrive pin level s) [b1 pin.val, bBool level]
    | some _, none => refuse s .badArgument
    | none, _ => refuse s .badArgument

/-- The level PIN READ gives for a pin (R86). -/
def State.levelShown (s : State) (pin : Pin) : Level :=
  match (s.pins.get pin).map.dir with
  | .output => (s.pins.get pin).driven.getD false
  | .input => ((s.watch.get pin).map (·.confirmed)).getD false
  | .unused => false

/-- The byte of a pin in a PIN READ result (R86, R203). Bit 3, to which R203 gives no field, is sent as 0: DESIGN CHOICE
(notes/assumptions/30.md). -/
def pinReadByte (s : State) (pin : Pin) : Byte :=
  b1 ((s.pins.get pin).map.dir.code + bitAt 2 (s.levelShown pin) + 16 * portNibble (s.pins.get pin).holder)

/-- PIN READ (R86). -/
def pinRead (args : List Byte) (s : State) : Reply :=
  if args.length ≠ 0 then refuse s .badArgument
  else ok s (allPins.map (pinReadByte s))

/-! ## Contention check -/

/-- RT has reached the check point of a pending check (R87). -/
def State.checkDue (s : State) (pin : Pin) : Bool :=
  s.powered && (s.pins.get pin).check.any fun point => decide (point ≤ s.time.rt)

/-- CONTENTION_CHECK: the level sensed at the pin against the driven level; the check is idle again (R87). -/
def contentionCheck (pin : Pin) (level : Level) (s : State) : State :=
  if s.checkDue pin then
    let s1 := { s with pins := s.pins.upd pin fun c => { c with check := none } }
    match (s.pins.get pin).driven with
    | none => s1
    | some d => if level = d then s1 else occur .pinContention none (.contention pin d) s1
  else s

def execContentionCheck (pin : Pin) (level : Level) (s : State) : Host.Outcome State Fault Refusal :=
  .next (contentionCheck pin level s)

def execPinConfigure (p : Port) (args : List Byte) (level : Level) (s : State) : Host.Outcome State Fault Refusal :=
  .next (request p 0x30#8 s (pinConfigure p args level))

def execPinClaim (p : Port) (args : List Byte) (s : State) : Host.Outcome State Fault Refusal :=
  .next (request p 0x31#8 s (pinClaim p args))

def execPinRelease (p : Port) (args : List Byte) (s : State) : Host.Outcome State Fault Refusal :=
  .next (request p 0x32#8 s (pinRelease p args))

def execPinWrite (p : Port) (args : List Byte) (s : State) : Host.Outcome State Fault Refusal :=
  .next (request p 0x33#8 s (pinWrite p args))

def execPinRead (p : Port) (args : List Byte) (s : State) : Host.Outcome State Fault Refusal :=
  .next (request p 0x34#8 s (pinRead args))

end Sys2Proof.Machine
end

