-- ==== Sys2Proof/Machine/Capture.lean ====
section
/-! DEFINITION. The capture unit: transitions (R91, R93, R94, R96), window ends (R95), the handing on of an edge (R99 to R101), and
SUBSCRIBE (R102). -/

namespace Sys2Proof.Machine

/-- The ports whose subscription to the pin includes the edge (R99). -/
def subscribers (pin : Pin) (ed : Edge) (s : State) : List Port :=
  allPorts.filter fun p => ((s.subs.get p).get pin).includes ed

/-- R99 to R101: the CAPTURE records, stamped at the first transition, and then the edge arrival at the schedule. -/
def handOn (pin : Pin) (ed : Edge) (ht : Nat) (epoch : BitVec 16) (locked late : Bool) (s : State) : State :=
  edgeArrival pin ed ht (postAll ⟨.capture pin ed, 0, late, locked, ht, epoch⟩ (subscribers pin ed s) s)

/-- A pin's watch record replaced. -/
def setWatch (pin : Pin) (w : Watch) (s : State) : State := { s with watch := s.watch.set pin (some w) }

/-- R93: the window that a transition opens. -/
def openWindow (pin : Pin) (s : State) : Window :=
  ⟨s.time.rt + (s.pins.get pin).map.debounceUs * 1000, s.time.ht, s.time.epoch, s.isLocked, false⟩

/-- TRANSITION: a sensed level that differs from the level sensed before (R91). In WINDOW it is not looked at (R94); in IDLE it
opens a window (R93), or is confirmed at once with a debounce window of 0 (R96). -/
def transition (pin : Pin) (level : Level) (s : State) : State :=
  match s.watch.get pin with
  | none => s
  | some w =>
    if s.powered && decide (level ≠ w.sensed) then
      match w.window with
      | some _ => setWatch pin { w with sensed := level } s
      | none =>
        if (s.pins.get pin).map.debounceUs = 0 then
          handOn pin (Edge.ofLevel level) s.time.ht s.time.epoch s.isLocked false
            (setWatch pin ⟨none, level, level⟩ s)
        else setWatch pin { w with sensed := level, window := some (openWindow pin s) } s
    else s

def execTransition (pin : Pin) (level : Level) (s : State) : Host.Outcome State Fault Refusal :=
  .next (transition pin level s)

/-- The running window of a pin whose end RT has reached (R95). -/
def State.windowDue (s : State) (pin : Pin) : Option (Watch × Window) :=
  match s.watch.get pin with
  | none => none
  | some w =>
    match w.window with
    | none => none
    | some d => if s.powered && decide (d.windowEnd ≤ s.time.rt) then some (w, d) else none

/-- DEBOUNCE_WINDOW_END: the level sensed at this advance is compared with the confirmed level; a level that differs confirms the
edge, and in both cases the state becomes IDLE (R95). -/
def debounceWindowEnd (pin : Pin) (level : Level) (s : State) : State :=
  match s.windowDue pin with
  | none => s
  | some (w, d) =>
    let s1 := setWatch pin ⟨none, level, level⟩ s
    if level = w.confirmed then s1
    else handOn pin (Edge.ofLevel level) d.stampHt d.stampEpoch d.stampLocked d.stepMark s1

def execDebounceWindowEnd (pin : Pin) (level : Level) (s : State) : Host.Outcome State Fault Refusal :=
  .next (debounceWindowEnd pin level s)

/-- SUBSCRIBE: the checks of R102 in order. -/
def subscribe (p : Port) (args : List Byte) (s : State) : Reply :=
  if args.length ≠ 2 then refuse s .badArgument
  else
    match pinOfCode (fld args 0 1), SubMode.ofCode (fld args 1 1) with
    | some pin, some mode =>
      if !s.isIn pin then refuse s .wrongDirection
      else ok { s with subs := s.subs.upd p fun t => t.set pin mode } [b1 pin.val, b1 mode.code]
    | some _, none => refuse s .badArgument
    | none, _ => refuse s .badArgument

def execSubscribe (p : Port) (args : List Byte) (s : State) : Host.Outcome State Fault Refusal :=
  .next (request p 0x38#8 s (subscribe p args))

end Sys2Proof.Machine
end

