-- ==== Sys2Proof/Machine/Rings.lean ====
section
/-! DEFINITION. The ring requests EVENT READ (R130, R204) and RING CONFIGURE (R132), and the 24-byte event record. -/

namespace Sys2Proof.Machine

/-- The kind code and the fields a, b, c, d of a record, with the skipped count and the remaining repeats (R201, R204). -/
structure RecordFields where
  kind : Nat
  a : Byte
  b : Byte
  c : Byte
  d : List Byte
  skipped : Nat
  remaining : Nat
deriving DecidableEq, Repr

/-- The placing of the kind fields (R204). -/
def RecordBody.fields : RecordBody → RecordFields
  | .capture pin ed => ⟨1, b1 pin.val, b1 (edgeCode ed), 0, beN 4 0, 0, 0⟩
  | .fired tag slot phase lateness skipped remaining =>
    ⟨2, tag, b1 slot.val, b1 phase.code, beN 4 lateness, skipped, remaining⟩
  | .cancelled tag slot reason => ⟨3, tag, b1 slot.val, b1 reason.code, beN 4 0, 0, 0⟩
  | .claimLost (some pin) => ⟨4, b1 pin.val, 0, 0, beN 4 0, 0, 0⟩
  | .claimLost none => ⟨4, 0xFF, 0, 0, beN 4 0, 0, 0⟩
  | .discipline old new e => ⟨5, b1 old.code, b1 new.code, 0, beInt 4 e, 0, 0⟩
  | .fault kind severity => ⟨6, b1 kind.idx.val, b1 severity.code, 0, beN 4 0, 0, 0⟩
  | .storeDone done => ⟨7, 0, 0, if done then 0 else 1, beN 4 0, 0, 0⟩

/-- The 24 bytes of an event record with `behind` records behind it in the ring (R204). Bits 7 to 2 of the flags byte, to which R204
gives no field, are sent as 0: DESIGN CHOICE (notes/assumptions/30.md). -/
def recordBytes (behind : Nat) (r : Record) : List Byte :=
  let q := r.body.fields
  [b1 (q.kind + 8 * behind), b1 r.dropped, b1 (bitAt 0 r.late + bitAt 1 r.locked), q.a] ++
    beN 8 r.ht ++ beN 2 r.epoch.toNat ++ [q.b, q.c] ++ q.d ++ beN 2 q.skipped ++ beN 2 q.remaining

/-- The records of a result, oldest first, `left` records of the ring staying behind them (R204). -/
def recordsBytes (left : Nat) : List Record → List Byte
  | [] => []
  | r :: rs => recordBytes (rs.length + left) r ++ recordsBytes left rs

/-- EVENT READ (R130). -/
def eventRead (p : Port) (args : List Byte) (s : State) : Reply :=
  let n := fld args 0 1
  if args.length ≠ 1 then refuse s .badArgument
  else if n < 1 ∨ 4 < n then refuse s .badArgument
  else
    let g := s.rings.get p
    let rest := g.records.drop n
    ok { s with rings := s.rings.set p { g with records := rest } }
      (recordsBytes rest.length (g.records.take n))

/-- RING CONFIGURE (R132). -/
def ringConfigure (p : Port) (args : List Byte) (s : State) : Reply :=
  let mark := fld args 0 1
  if args.length ≠ 3 then refuse s .badArgument
  else if 31 < mark ∨ allBool (args.drop 1) = false then refuse s .badArgument
  else
    let g := s.rings.get p
    let g1 := { g with mark := mark, selDiscipline := flagAt args 1, selFault := flagAt args 2 }
    let s1 := { s with rings := s.rings.set p g1 }
    ok (if mark < g.records.length then raiseClass p .ringMark s1 else s1)
      (args ++ [b1 g.records.length])

def execEventRead (p : Port) (args : List Byte) (s : State) : Host.Outcome State Fault Refusal :=
  .next (request p 0x40#8 s (eventRead p args))

def execRingConfigure (p : Port) (args : List Byte) (s : State) : Host.Outcome State Fault Refusal :=
  .next (request p 0x41#8 s (ringConfigure p args))

end Sys2Proof.Machine
end

