-- ==== Sys2Proof/Machine/Vectors.lean ====
section
/-! DEFINITION. The notification unit's requests: VECTOR CONFIGURE (R144), NOTIFY CONTROL (R145), VECTOR ACK (R146) and VECTOR READ
(R147). -/

namespace Sys2Proof.Machine

/-- R144: a vector whose mask changes moves between PENDING and ACTIVE; any other keeps its state. -/
def Vec.remask (masked functionMask : Bool) (v : Vec) : Vec :=
  let state :=
    if v.masked = masked then v.state
    else if masked then (if v.state = .active then .pending else v.state)
    else if functionMask then v.state
    else (if v.state = .pending then .active else v.state)
  { v with state := state, masked := masked }

/-- A passing VECTOR CONFIGURE: eight masks and six class map entries (R144). -/
def NotifyUnit.configure (masks : VecNo → Bool) (classMap : Tab 6 VecNo) (n : NotifyUnit) : NotifyUnit :=
  NotifyUnit.setLine { n with
    vecs := .build fun v => (n.vecs.get v).remask (masks v) n.functionMask
    classMap := classMap }

/-- The class map at bytes 8 to 13 of the arguments, when each entry is 0 to 7 (R144). -/
def readClassMap (args : List Byte) : Option (Tab 6 VecNo) :=
  if h : ∀ k : Fin 6, fld args (8 + k.val) 1 < 8 then
    some (.build fun k => ⟨fld args (8 + k.val) 1, h k⟩)
  else none

/-- VECTOR CONFIGURE (R144). -/
def vectorConfigure (p : Port) (args : List Byte) (s : State) : Reply :=
  if args.length ≠ 14 then refuse s .badArgument
  else if allBool (args.take 8) = false then refuse s .badArgument
  else
    match readClassMap args with
    | none => refuse s .badArgument
    | some m =>
      let n := (s.vectors.get p).configure (fun v => flagAt args v.val) m
      ok { s with vectors := s.vectors.set p n } args

/-- VECTOR ACK: the vector becomes IDLE with count 0 (R146). -/
def NotifyUnit.ack (v : VecNo) (n : NotifyUnit) : NotifyUnit :=
  NotifyUnit.setLine { n with vecs := n.vecs.upd v fun c => { c with state := .idle, count := 0 } }

/-- VECTOR ACK (R146). An ACK of an IDLE vector has no effect. -/
def vectorAck (p : Port) (args : List Byte) (s : State) : Reply :=
  if args.length ≠ 1 then refuse s .badArgument
  else
    match vecOfCode (fld args 0 1) with
    | none => refuse s .badArgument
    | some v =>
      let c := (s.vectors.get p).vecs.get v
      if c.state = .idle then ok s [b1 v.val, b1 c.state.code, 0]
      else ok { s with vectors := s.vectors.upd p (NotifyUnit.ack v) } [b1 v.val, b1 c.state.code, b1 c.count]

/-- A vector's state after a change of the function mask (R145). -/
def Vec.refunction (before after : Bool) (v : Vec) : Vec :=
  if before = after then v
  else if after then (if v.state = .active then { v with state := .pending } else v)
  else if v.state = .pending ∧ v.masked = false then { v with state := .active }
  else v

/-- A passing NOTIFY CONTROL (R145). -/
def NotifyUnit.control (enable functionMask : Bool) (n : NotifyUnit) : NotifyUnit :=
  NotifyUnit.setLine { n with
    vecs :=
      if enable then n.vecs.map (Vec.refunction n.functionMask functionMask)
      else n.vecs.map fun c => { c with state := .idle, count := 0 }
    enable := enable
    functionMask := functionMask }

/-- NOTIFY CONTROL (R145). -/
def notifyControl (p : Port) (args : List Byte) (s : State) : Reply :=
  if args.length ≠ 2 then refuse s .badArgument
  else if allBool args = false then refuse s .badArgument
  else
    let n := (s.vectors.get p).control (flagAt args 0) (flagAt args 1)
    ok { s with vectors := s.vectors.set p n } (args ++ [bBool n.notifynLow])

/-- VECTOR READ (R147). -/
def vectorRead (p : Port) (args : List Byte) (s : State) : Reply :=
  if args.length ≠ 0 then refuse s .badArgument
  else
    let n := s.vectors.get p
    ok s ((allVecs.flatMap fun v =>
        let c := n.vecs.get v
        [b1 c.state.code, b1 c.count, bBool c.masked]) ++
      ([0, 1, 2, 3, 4, 5] : List (Fin 6)).map (fun k => b1 (n.classMap.get k).val) ++
      [bBool n.enable, bBool n.functionMask, bBool n.notifynLow])

def execVectorConfigure (p : Port) (args : List Byte) (s : State) : Host.Outcome State Fault Refusal :=
  .next (request p 0x48#8 s (vectorConfigure p args))

def execVectorAck (p : Port) (args : List Byte) (s : State) : Host.Outcome State Fault Refusal :=
  .next (request p 0x49#8 s (vectorAck p args))

def execNotifyControl (p : Port) (args : List Byte) (s : State) : Host.Outcome State Fault Refusal :=
  .next (request p 0x4A#8 s (notifyControl p args))

def execVectorRead (p : Port) (args : List Byte) (s : State) : Host.Outcome State Fault Refusal :=
  .next (request p 0x4B#8 s (vectorRead p args))

end Sys2Proof.Machine
end

