-- ==== Sys2Proof/Machine/Faults.lean ====
section
/-! DEFINITION. The fault log's requests: FAULT READ (R160), FAULT CLEAR (R161), FAULT RECORD CLEAR (R163) and FAULT CONFIGURE
(R164), with the capture record's bytes (R203). -/

namespace Sys2Proof.Machine

/-- A set of eleven kinds in two bytes: bit k for fault kind k (R201). Bits 15 to 11, to which R201 gives no kind, are 0: DESIGN
CHOICE in a FAULT READ (notes/assumptions/30.md), DEDUCED in a SETTINGS READ (notes/assumptions/31.md), stated for the image (R175). -/
def kindSet (f : Fin 11 → Bool) : Nat := (allKinds.map fun k => bitAt k.val (f k)).sum

/-- The masks in two bytes (R201). -/
def FaultLog.maskBytes (l : FaultLog) : List Byte := beN 2 (kindSet fun k => (l.cells.get k).masked)

/-- The severities in two bytes, 1 for major (R201). -/
def FaultLog.severityBytes (l : FaultLog) : List Byte :=
  beN 2 (kindSet fun k => decide ((l.cells.get k).severity = .major))

/-- The eight context bytes (R153, R203). -/
def FaultContext.bytes : FaultContext → List Byte
  | .none => beN 8 0
  | .missCount n => beN 8 n
  | .interval ns => beN 8 ns
  | .phaseError e => beInt 8 e
  | .stepAmount ns => beN 8 ns
  | .lateFire tag slot lateness => [tag, b1 slot.val] ++ beN 4 (min lateness 4294967295) ++ [0, 0]
  | .frame x0 x1 x2 x3 => [x0, x1, x2, x3, 0, 0, 0, 0]
  | .contention pin driven => [b1 pin.val, bBool driven, 0, 0, 0, 0, 0, 0]

/-- The 20 bytes of the capture record; kind 0xFF when none is held (R203, R201). -/
def captureBytes (o : Option CaptureRecord) : List Byte :=
  match o with
  | none => [0xFF] ++ beN 8 0 ++ beN 2 0 ++ [0xFF] ++ beN 8 0
  | some c => [b1 c.kind.idx.val] ++ beN 8 c.ht ++ beN 2 c.epoch.toNat ++ [portByte c.port] ++ c.context.bytes

/-- FAULT READ (R160, R203). Bits 7 to 3 of its flags byte, to which R203 gives no field, are sent as 0: DESIGN CHOICE
(notes/assumptions/30.md). -/
def faultRead (args : List Byte) (s : State) : Reply :=
  if args.length ≠ 0 then refuse s .badArgument
  else
    let l := s.faults
    ok s (allKinds.map (fun k => b1 (l.cells.get k).count) ++ l.maskBytes ++ l.severityBytes ++
      captureBytes l.capture ++
      [b1 (bitAt 0 l.overflow + bitAt 1 l.safeOnMajor + bitAt 2 l.faultnLow)])

/-- FAULT CLEAR: the checks of R161 in order; the seen count is subtracted, down to 0 at the least. -/
def faultClear (p : Port) (args : List Byte) (s : State) : Reply :=
  if args.length ≠ 2 then refuse s .badArgument
  else if !s.holdsSettings p then refuse s .notPermitted
  else
    match FaultKind.ofCode (fld args 0 1) with
    | none => refuse s .badArgument
    | some k =>
      let left := (s.faults.cells.get k.idx).count - fld args 1 1
      ok (setFaultn { s with faults := { s.faults with
          cells := s.faults.cells.upd k.idx fun c => { c with count := left } } })
        [b1 k.idx.val, b1 left]

/-- The severity that a byte of 1 or 0 stands for (R201). -/
def severityOf (b : Bool) : Severity := if b then .major else .minor

/-- A passing FAULT CONFIGURE (R164). -/
def faultConfigured (args : List Byte) (s : State) : State :=
  setFaultn { s with faults := { s.faults with
    cells := .build fun k =>
      ⟨(s.faults.cells.get k).count, flagAt args k.val, severityOf (flagAt args (11 + k.val))⟩
    safeOnMajor := flagAt args 22 } }

/-- FAULT CONFIGURE (R164). -/
def faultConfigure (p : Port) (args : List Byte) (s : State) : Reply :=
  if args.length ≠ 23 then refuse s .badArgument
  else if !s.holdsSettings p then refuse s .notPermitted
  else if allBool args = false then refuse s .badArgument
  else
    let s1 := faultConfigured args s
    ok s1 (args ++ [bBool s1.faults.faultnLow])

/-- FAULT RECORD CLEAR (R163). -/
def faultRecordClear (p : Port) (args : List Byte) (s : State) : Reply :=
  if args.length ≠ 0 then refuse s .badArgument
  else if !s.holdsSettings p then refuse s .notPermitted
  else ok { s with faults := { s.faults with capture := none, overflow := false } }
    (captureBytes s.faults.capture ++ [bBool s.faults.overflow])

def execFaultRead (p : Port) (args : List Byte) (s : State) : Host.Outcome State Fault Refusal :=
  .next (request p 0x50#8 s (faultRead args))

def execFaultClear (p : Port) (args : List Byte) (s : State) : Host.Outcome State Fault Refusal :=
  .next (request p 0x51#8 s (faultClear p args))

def execFaultConfigure (p : Port) (args : List Byte) (s : State) : Host.Outcome State Fault Refusal :=
  .next (request p 0x52#8 s (faultConfigure p args))

def execFaultRecordClear (p : Port) (args : List Byte) (s : State) : Host.Outcome State Fault Refusal :=
  .next (request p 0x53#8 s (faultRecordClear p args))

end Sys2Proof.Machine
end

