-- ==== Sys2Proof/Machine/Settings.lean ====
section
/-! DEFINITION. The settings unit: the settings image and its judgement (R175), the load (R176, R177), the settings claim (R169,
R170), PORT LIMITS SET and SETTINGS READ (R172, R174), store writes and their completion (R178 to R180). -/

namespace Sys2Proof.Machine

/-! ## The working settings as one record, and the image -/

/-- The settings that the image holds (R175). -/
structure Settings where
  pins : Tab 24 PinMap
  quotas : Tab 4 Nat
  leases : Tab 4 Nat
  ref : RefConfig
  profile : Profile
  lateThreshold : Nat
  masks : Tab 11 Bool
  severities : Tab 11 Severity
  safeOnMajor : Bool
  frozen : Bool
deriving DecidableEq, Repr

/-- The settings in use, spread over their blocks (R175). -/
def workingSettings (s : State) : Settings where
  pins := s.pins.map (·.map)
  quotas := s.settings.quotas
  leases := s.ports.map (·.defaultLeaseMs)
  ref := s.disc.cfg
  profile := s.disc.profile
  lateThreshold := s.sched.lateThreshold
  masks := s.faults.cells.map (·.masked)
  severities := s.faults.cells.map (·.severity)
  safeOnMajor := s.faults.safeOnMajor
  frozen := s.settings.frozen

/-- The built-in defaults (R177). -/
def Settings.builtin : Settings where
  pins := .fill 24 ⟨.unused, false, 0⟩
  quotas := .fill 4 16
  leases := .fill 4 0
  ref := .builtin
  profile := .builtin
  lateThreshold := 10000
  masks := .fill 11 false
  severities := .build defaultSeverity
  safeOnMajor := true
  frozen := false

/-- Two bytes of a pin: direction in bits 15–14, safe level in bit 13, debounce in bits 9–0 (R203). Bits 12 to 10 are 0, as R175
states for the image (in a SETTINGS READ: DEDUCED, notes/assumptions/31.md). -/
def PinMap.word (m : PinMap) : Nat := m.dir.code * 16384 + bitAt 13 m.safe + m.debounceUs

/-- The reference byte: enabled in bit 0, edge in bit 1, step enable in bit 2 (R203). Bits 7 to 3 are 0, as R175 states for the image
(in a SETTINGS READ: DEDUCED, notes/assumptions/31.md). -/
def RefConfig.byte (c : RefConfig) : Byte :=
  b1 (bitAt 0 c.enabled + bitAt 1 (decide (c.edge = .fall)) + bitAt 2 c.stepEnable)

/-- The five thresholds, four bytes each (R203). -/
def Profile.bytes (q : Profile) : List Byte :=
  beN 4 q.lockIn ++ beN 4 q.lockOut ++ beN 4 q.trkIn ++ beN 4 q.acqIn ++ beN 4 q.stepTh

/-- The first 94 bytes of a SETTINGS READ result, with this code in the store-state bits (R203); with code 0 they are bytes 0 to
93 of the image (R175). Bits 7 to 4 of the last byte are 0, as R175 states for the image (in a SETTINGS READ: DEDUCED,
notes/assumptions/31.md). -/
def Settings.bytes (w : Settings) (storeCode : Nat) : List Byte :=
  (allPins.flatMap fun k => beN 2 (w.pins.get k).word) ++
    allPorts.map (fun p => b1 (w.quotas.get p)) ++
    (allPorts.flatMap fun p => beN 2 (w.leases.get p)) ++
    beN 4 w.ref.trefUs ++ [w.ref.byte] ++ w.profile.bytes ++ beN 4 w.lateThreshold ++
    beN 2 (kindSet fun k => w.masks.get k) ++
    beN 2 (kindSet fun k => decide (w.severities.get k = .major)) ++
    [b1 (bitAt 0 w.safeOnMajor + bitAt 1 w.frozen + 4 * storeCode)]

/-- The 128-byte image of settings: 94 bytes of settings, 32 bytes of 0, the CRC-16 high byte first (R175). -/
def imageOf (w : Settings) : List Byte :=
  let body := w.bytes 0 ++ beN 32 0
  body ++ beN 2 (crc16 body).toNat

/-- A pin's map entry read from its two bytes; none when the direction has no code or one of the spare bits 12 to 10 is 1 (R175,
R203). -/
def readPinWord (n : Nat) : Option PinMap :=
  match Direction.ofCode (n / 16384) with
  | none => none
  | some dir => if n / 1024 % 8 = 0 then some ⟨dir, decide (n / 8192 % 2 = 1), n % 1024⟩ else none

/-- Every cell of a table of options, when all are present. -/
def allPresent {n : Nat} {α : Type} (t : Tab n (Option α)) : Option (Tab n α) :=
  if h : ∀ k : Fin n, (t.get k).isSome then some (.build fun k => (t.get k).get (h k)) else none

/-- Bit `k` of a number. -/
def bitOf (n k : Nat) : Bool := decide (n / 2 ^ k % 2 = 1)

/-- The sum of the four quotas (R172). -/
def quotaSum (q : Tab 4 Nat) : Nat := (allPorts.map fun p => q.get p).sum

/-- Each quota is 0 to 64 and the four sum to 64 or less (R172, R175). -/
def quotasInRange (q : Tab 4 Nat) : Bool :=
  (allPorts.all fun p => decide (q.get p ≤ 64)) && decide (quotaSum q ≤ 64)

/-- Each default lease period is 0 or 10 to 60,000 ms (R172). -/
def leasesInRange (q : Tab 4 Nat) : Bool := allPorts.all fun p => leaseInRange (q.get p)

/-- The fields of an image before their ranges are judged (R175, R203). -/
def settingsAt (bs : List Byte) (pins : Tab 24 PinMap) : Settings where
  pins := pins
  quotas := .build fun p => fld bs (48 + p.val) 1
  leases := .build fun p => fld bs (52 + 2 * p.val) 2
  ref := ⟨bitOf (fld bs 64 1) 0, fld bs 60 4, if bitOf (fld bs 64 1) 1 then .fall else .rise, bitOf (fld bs 64 1) 2⟩
  profile := profileAt bs 65
  lateThreshold := fld bs 85 4
  masks := .build fun k => bitOf (fld bs 89 2) k.val
  severities := .build fun k => if bitOf (fld bs 91 2) k.val then .major else .minor
  safeOnMajor := bitOf (fld bs 93 1) 0
  frozen := bitOf (fld bs 93 1) 1

/-- Every bit of bytes 48 to 125 that carries no field is 0 (R175); the pin map's spare bits are judged by `readPinWord`. -/
def spareBitsClear (bs : List Byte) : Bool :=
  decide (fld bs 64 1 < 8) && decide (fld bs 89 2 < 2048) && decide (fld bs 91 2 < 2048) && decide (fld bs 93 1 < 4) &&
    ((bs.drop 94).take 32).all fun b => decide (b = 0#8)

/-- Each field holds a value within its range (R175). -/
def Settings.inRange (w : Settings) : Bool :=
  quotasInRange w.quotas && leasesInRange w.leases &&
    decide (1000 ≤ w.ref.trefUs) && decide (w.ref.trefUs ≤ 1000000) && w.profile.inRange &&
    decide (w.lateThreshold ≤ 1000000)

/-- The settings of a valid image, or none when the image is invalid (R175). -/
def readImage (bs : List Byte) : Option Settings :=
  if bs.length = 128 ∧ fld bs 126 2 = (crc16 (bs.take 126)).toNat ∧ spareBitsClear bs then
    match allPresent (.build fun k : Fin 24 => readPinWord (fld bs (2 * k.val) 2)) with
    | none => none
    | some pins =>
      let w := settingsAt bs pins
      if w.inRange then some w else none
  else none

/-- The settings that a store image gives at a load (R176). -/
def StoreImage.settings : StoreImage → Option Settings
  | .bytes bs => readImage bs
  | .spoiled => none

/-! ## Loading -/

/-- The pin unit's part of a load (R90): a pin OUT in the loaded map is driven to its loaded safe level, and its first level or
a level different from the one it held is a change; any other pin is not driven. -/
def PinCell.load (rt : Nat) (m : PinMap) (c : PinCell) : PinCell :=
  if m.dir = .output then
    PinCell.driveSafe rt { c with map := m, driven := if c.map.dir = .output then c.driven else none }
  else { c with map := m, driven := none, check := none }

/-- The discipline unit's part of a load (R17, R35): SEARCH when the loaded reference is enabled, not reported (R29). -/
def Discipline.load (rt : Nat) (c : RefConfig) (q : Profile) (d : Discipline) : Discipline :=
  let d1 := { d with cfg := c, profile := q }
  if c.enabled then { d1.enable rt with state := .search } else d1

/-- The fault log's part of a load after power-on (R167). -/
def FaultLog.load (w : Settings) (l : FaultLog) : FaultLog :=
  FaultLog.setLine { l with
    cells := .build fun k => ⟨(l.cells.get k).count, w.masks.get k, w.severities.get k⟩
    safeOnMajor := w.safeOnMajor }

/-- A port at a load: its default lease period, its lease started from it, and a frame that began before the load and is still in
progress, which is not received (R199, R200). -/
def PortState.load (rt leaseMs : Nat) (begun : Bool) (q : PortState) : PortState :=
  PortState.startLease rt leaseMs
    { q with receiver := .idle, missed := begun && !q.prstnLow, defaultLeaseMs := leaseMs }

/-- The loaded values put in place (R176, R106, R200). `levels` are the levels sensed at the load event, `begun` the ports with a
frame in progress. -/
def putSettings (kind : LoadKind) (w : Settings) (valid : Bool) (levels : BitVec 24) (begun : BitVec 4) (s : State) : State :=
  { s with
    load := none
    settings := { s.settings with
      quotas := w.quotas
      frozen := w.frozen
      store := if valid then .valid else .invalid }
    pins := .build fun k => PinCell.load s.time.rt (w.pins.get k) (s.pins.get k)
    watch := .build fun k =>
      if (w.pins.get k).dir = .input then some (Watch.fresh (levels.getLsbD k.val)) else none
    ports := .build fun p => PortState.load s.time.rt (w.leases.get p) (begun.getLsbD p.val) (s.ports.get p)
    disc := s.disc.load s.time.rt w.ref w.profile
    sched := { s.sched with lateThreshold := w.lateThreshold }
    faults := match kind with
      | .powerOn => s.faults.load w
      | .hubReset _ => s.faults }

/-- SETTINGS_LOAD: taken once after each power-on and each hub reset, when RESETn is high (R176, R199). An invalid image gives
the built-in defaults, and STORE_INVALID is recorded after the values are in place (R176, R167). -/
def settingsLoad (levels : BitVec 24) (begun : BitVec 4) (s : State) : State :=
  match s.load with
  | none => s
  | some kind =>
    if s.powered && !s.resetnLow then
      match s.settings.image.settings with
      | some w => putSettings kind w true levels begun s
      | none => occur .storeInvalid none .none (putSettings kind .builtin false levels begun s)
    else s

def execSettingsLoad (seen : LoadInputs) (s : State) : Host.Outcome State Fault Refusal :=
  .next (settingsLoad seen.levels seen.begun s)

/-! ## The settings claim -/

/-- SETTINGS CLAIM: the checks of R169 in order. -/
def settingsClaim (p : Port) (args : List Byte) (s : State) : Reply :=
  if args.length ≠ 0 then refuse s .badArgument
  else if s.leaseExpired p then refuse s .lapsed
  else
    match s.settings.holder with
    | some h => if h = p then ok s [b1 p.val] else refuseHeldBy s h
    | none =>
      if s.settings.store.isWriting then refuse s .storeBusy
      else ok { s with settings := { s.settings with holder := some p } } [b1 p.val]

/-- SETTINGS RELEASE (R170). -/
def settingsRelease (p : Port) (args : List Byte) (s : State) : Reply :=
  if args.length ≠ 0 then refuse s .badArgument
  else if !s.holdsSettings p then refuse s .notOwner
  else ok { s with settings := { s.settings with holder := none } } []

/-! ## PORT LIMITS SET and SETTINGS READ -/

/-- PORT LIMITS SET: the checks of R172 in order. -/
def portLimitsSet (p : Port) (args : List Byte) (s : State) : Reply :=
  let quotas : Tab 4 Nat := .build fun q => fld args q.val 1
  let leases : Tab 4 Nat := .build fun q => fld args (4 + 2 * q.val) 2
  if args.length ≠ 12 then refuse s .badArgument
  else if !s.holdsSettings p then refuse s .notPermitted
  else if !(quotasInRange quotas && leasesInRange leases) then refuse s .badArgument
  else if s.settings.frozen then refuse s .frozen
  else if allPorts.any (fun q => decide (quotas.get q < s.sched.holdings q)) then refuse s .inUse
  else
    ok { s with
      settings := { s.settings with quotas := quotas }
      ports := .build fun q => { s.ports.get q with defaultLeaseMs := leases.get q } } args

/-- SETTINGS READ (R174, R203). -/
def settingsRead (args : List Byte) (s : State) : Reply :=
  if args.length ≠ 0 then refuse s .badArgument
  else
    ok s ((workingSettings s).bytes s.settings.store.code ++
      [b1 (portNibble s.settings.holder + 16 * portNibble s.settings.requester)])

/-! ## Writing the store -/

/-- A store write started: the snapshot with the frozen flag as given, the store state WRITING, the requester (R178, R180). -/
def startWrite (p : Port) (freeze : Bool) (s : State) : State :=
  { s with settings := { s.settings with
      store := .writing (imageOf { workingSettings s with frozen := freeze }) s.time.rt freeze
      requester := some p } }

/-- The checks of R178 in order, and the start of the write. -/
def writeStore (p : Port) (args : List Byte) (freeze : Bool) (s : State) : Reply :=
  if args.length ≠ 0 then refuse s .badArgument
  else if !s.holdsSettings p then refuse s .notPermitted
  else if s.settings.frozen then refuse s .frozen
  else if s.settings.store.isWriting then refuse s .storeBusy
  else
    let s1 := startWrite p freeze s
    ok s1 [b1 s1.settings.store.code]

/-- STORE WRITE (R178). -/
def storeWrite (p : Port) (args : List Byte) (s : State) : Reply := writeStore p args false s

/-- STORE FREEZE (R180). -/
def storeFreeze (p : Port) (args : List Byte) (s : State) : Reply := writeStore p args true s

/-- The least and the greatest duration of a store write, in ns of RT (R178). -/
def writeMinNs : Nat := 8000000

def writeMaxNs : Nat := 15000000

/-- Steps 1, 2 and 4 of R179: the store state and the image, the frozen flag of a freeze that succeeded, the requester. -/
def SettingsUnit.finishWrite (verified : Bool) (snapshot : List Byte) (freeze : Bool) (u : SettingsUnit) : SettingsUnit :=
  { u with
    store := if verified then .valid else .invalid
    image := if verified then .bytes snapshot else .spoiled
    frozen := u.frozen || (freeze && verified)
    requester := none }

/-- Step 3 of R179: the STORE_DONE record and the STORE raise to the port named in the field. -/
def postStoreDone (requester : Option Port) (verified : Bool) (s : State) : State :=
  match requester with
  | none => s
  | some p => raiseClass p .store (post p (plainRecord s (.storeDone verified)) s)

/-- STORE_COMPLETION: an event of a write in progress at least 8,000,000 ns of RT after its take (R178, R179). -/
def storeCompletion (verified : Bool) (s : State) : State :=
  match s.settings.store with
  | .valid => s
  | .invalid => s
  | .writing snapshot takenAt freeze =>
    if s.powered && decide (takenAt + writeMinNs ≤ s.time.rt) then
      let s1 := { s with settings := s.settings.finishWrite verified snapshot freeze }
      let s2 := postStoreDone s.settings.requester verified s1
      if verified then s2 else occur .storeWriteFail none .none s2
    else s

def execStoreCompletion (verified : Bool) (s : State) : Host.Outcome State Fault Refusal :=
  .next (storeCompletion verified s)

def execSettingsClaim (p : Port) (args : List Byte) (s : State) : Host.Outcome State Fault Refusal :=
  .next (request p 0x60#8 s (settingsClaim p args))

def execSettingsRelease (p : Port) (args : List Byte) (s : State) : Host.Outcome State Fault Refusal :=
  .next (request p 0x61#8 s (settingsRelease p args))

def execPortLimitsSet (p : Port) (args : List Byte) (s : State) : Host.Outcome State Fault Refusal :=
  .next (request p 0x62#8 s (portLimitsSet p args))

def execSettingsRead (p : Port) (args : List Byte) (s : State) : Host.Outcome State Fault Refusal :=
  .next (request p 0x63#8 s (settingsRead args))

def execStoreWrite (p : Port) (args : List Byte) (s : State) : Host.Outcome State Fault Refusal :=
  .next (request p 0x64#8 s (storeWrite p args))

def execStoreFreeze (p : Port) (args : List Byte) (s : State) : Host.Outcome State Fault Refusal :=
  .next (request p 0x65#8 s (storeFreeze p args))

end Sys2Proof.Machine
end

