-- ==== Sys2Proof/Machine/Ports.lean ====
section
/-! DEFINITION. The master ports: frames that carry no request (R185, R186), RESULT READ (R187, R188), IDENTIFY and PORT STATUS
(R189, R190), leases (R191 to R193), port resets (R195 to R197), hub resets (R198, R199) and the supply (R181, R200). -/

namespace Sys2Proof.Machine

/-! ## Frames without a request -/

/-- Byte `k` of a frame, 0xFF where no whole byte was received (R185). -/
def frameByte (bytes : List Byte) (k : Nat) : Byte := bytes.getD k 0xFF#8

/-- What the receiver of `p` holds of a request frame at its end: up to 64 whole bytes, with the trailing bits (R183, R184). -/
def receive (p : Port) (bytes : List Byte) (trailing : Nat) (s : State) : State :=
  { s with ports := s.ports.upd p fun q => { q with receiver := .receiving (bytes.take 64) trailing } }

/-- BAD_FRAME: the result buffer and the FRAME_ERROR occurrence (R185). A good frame is none, and the end of a RESULT READ is not
judged (R183, R184). -/
def badFrame (p : Port) (bytes : List Byte) (trailing : Nat) (s : State) : State :=
  if s.takesFrames p then
    if isResultRead bytes || goodFrame bytes trailing then s
    else
      occur .frameError (some p)
        (.frame (frameByte bytes 0) (frameByte bytes 1) (frameByte bytes 2) (frameByte bytes 3))
        (answer p ⟨.badFrame, frameByte bytes 0, []⟩ (receive p bytes trailing s))
  else frameEnd p s

def execBadFrame (p : Port) (bytes : List Byte) (trailing : Nat) (s : State) : Host.Outcome State Fault Refusal :=
  .next (badFrame p bytes trailing s)

/-- UNKNOWN_REQUEST: a code that names no request of the part (R186). -/
def unknownRequest (p : Port) (code : Byte) (_args : List Byte) (s : State) : State :=
  if s.takesFrames p && (requestCodes.contains code || decide (code = 0x00#8)) then s
  else request p code s fun s => refuse s .unknownRequest

def execUnknownRequest (p : Port) (code : Byte) (args : List Byte) (s : State) : Host.Outcome State Fault Refusal :=
  .next (unknownRequest p code args s)

/-- The bytes that a RESULT READ shifts out: status, echoed code, port flags, result length, data, CRC-8 (R187, R202). -/
def resultBytes (p : Port) (s : State) : List Byte :=
  let r := (s.ports.get p).result
  let body := [b1 r.status.code, r.code, portFlags p s, b1 r.data.length] ++ r.data
  body ++ [crc8 body]

/-- What a RESULT READ begins: after the ones of its first byte SDO_p shifts out a copy of the buffer with the flags (R183, R187). -/
def shiftOut (p : Port) (s : State) : State :=
  { s with ports := s.ports.upd p fun q =>
      { q with receiver := .shifting (resultBytes p s), sdo := 0xFF#8 :: resultBytes p s } }

/-- RESULT READ, through to its end, which is not judged; the buffer is unchanged (R183, R187). -/
def resultRead (p : Port) (s : State) : State :=
  if s.takesFrames p then frameEnd p (shiftOut p s) else frameEnd p s

def execResultRead (p : Port) (s : State) : Host.Outcome State Fault Refusal := .next (resultRead p s)

/-! ## IDENTIFY and PORT STATUS -/

/-- IDENTIFY (R189): vendor 0x50, part 0x0424, revision 2. -/
def identify (p : Port) (args : List Byte) (s : State) : Reply :=
  if args.length ≠ 0 then refuse s .badArgument
  else ok s [0x50, 0x04, 0x24, 2, b1 p.val, b1 s.settings.store.code, bBool s.settings.frozen]

/-- RT left of a lease (R190). -/
def Lease.left (rt : Nat) : Lease → Nat
  | .none => 0
  | .running point => point - rt
  | .expired => 0

/-- The pins a port holds, in three bytes: bit k for HPk, HP23 to HP16 first (R201). -/
def claimedPins (p : Port) (s : State) : Nat := (allPins.map fun k => bitAt k.val (s.holdsPin p k)).sum

/-- PORT STATUS (R190). -/
def portStatus (p : Port) (args : List Byte) (s : State) : Reply :=
  if args.length ≠ 0 then refuse s .badArgument
  else
    let q := s.ports.get p
    let n := s.vectors.get p
    ok s ([b1 q.lease.code] ++ beN 8 (q.lease.left s.time.rt) ++ beN 2 q.leasePeriodMs ++
      [b1 (s.sched.holdings p), b1 (s.settings.quotas.get p)] ++ beN 3 (claimedPins p s) ++
      [portByte s.settings.holder, b1 (s.rings.get p).records.length, bBool n.enable, bBool n.functionMask])

/-! ## Leases -/

/-- A port's lease started with a period (R191). -/
def startLease (p : Port) (periodMs : Nat) (s : State) : State :=
  { s with ports := s.ports.upd p (PortState.startLease s.time.rt periodMs) }

/-- The result of LEASE SET and LEASE RENEW: lease state, period, RT left (R192, R203). -/
def leaseData (p : Port) (s : State) : List Byte :=
  let q := s.ports.get p
  [b1 q.lease.code] ++ beN 2 q.leasePeriodMs ++ beN 8 (q.lease.left s.time.rt)

/-- LEASE SET (R192). -/
def leaseSet (p : Port) (args : List Byte) (s : State) : Reply :=
  if args.length ≠ 2 then refuse s .badArgument
  else if !leaseInRange (fld args 0 2) then refuse s .badArgument
  else
    let s1 := startLease p (fld args 0 2) s
    ok s1 (leaseData p s1)

/-- LEASE RENEW (R192). -/
def leaseRenew (p : Port) (args : List Byte) (s : State) : Reply :=
  if args.length ≠ 0 then refuse s .badArgument
  else
    let s1 := startLease p (s.ports.get p).leasePeriodMs s
    ok s1 (leaseData p s1)

/-- One pin of a lease expiry: the claim loss and then its CLAIM_LOST record (R81). -/
def expireClaim (p : Port) (pin : Pin) (s : State) : State :=
  let s1 := loseClaim p pin .lease s
  post p (plainRecord s1 (.claimLost (some pin))) s1

/-- Step 1 of R193: every pin of a list that the port holds, in order. -/
def expireClaims (p : Port) : List Pin → State → State
  | [], s => s
  | pin :: pins, s => expireClaims p pins (if s.holdsPin p pin then expireClaim p pin s else s)

/-- Step 2 of R193: the settings claim and its CLAIM_LOST record. -/
def expireSettings (p : Port) (s : State) : State :=
  if s.holdsSettings p then
    let s1 := { s with settings := { s.settings with holder := none } }
    post p (plainRecord s1 (.claimLost none)) s1
  else s

/-- RT has reached the expiry point of a RUNNING lease (R193). -/
def State.leaseDue (s : State) (p : Port) : Bool :=
  s.powered && match (s.ports.get p).lease with
    | .running point => decide (point ≤ s.time.rt)
    | .none => false
    | .expired => false

/-- LEASE_EXPIRY: the five steps of R193 in order. -/
def leaseExpiry (p : Port) (s : State) : State :=
  if s.leaseDue p then
    let s1 := expireSettings p (expireClaims p allPins s)
    let s2 := occur .leaseExpired (some p) .none s1
    let s3 := raiseClass p .claim s2
    { s3 with ports := s3.ports.upd p fun q => { q with lease := .expired } }
  else s

def execLeaseExpiry (p : Port) (s : State) : Host.Outcome State Fault Refusal := .next (leaseExpiry p s)

/-! ## Port reset -/

/-- R89: the claims of a port cleared and their pins driven to their safe levels. -/
def PinCell.releasePort (p : Port) (rt : Nat) (c : PinCell) : PinCell :=
  if c.holder = some p then PinCell.driveSafe rt { c with holder := none } else c

/-- R170, R181: the settings claim and the store-requester field of a port cleared. -/
def SettingsUnit.releasePort (p : Port) (u : SettingsUnit) : SettingsUnit :=
  { u with
    holder := if u.holder = some p then none else u.holder
    requester := if u.requester = some p then none else u.requester }

/-- Steps 8 and 9 of R196 and the discarding of a frame in progress (R195). Before the settings load the lease stays as the
hub reset or power-on set it (R199). -/
def PortState.reset9 (rt : Nat) (loading : Bool) (q : PortState) : PortState :=
  let q1 := { q with receiver := .idle, sdo := [], missed := false, result := .empty }
  if loading then q1 else q1.startLease rt q.defaultLeaseMs

/-- A port reset of `p`: the nine steps of R196. -/
def portResetOf (p : Port) (s : State) : State :=
  let s1 := removeEntriesOf p s
  { s1 with
    pins := s1.pins.map (PinCell.releasePort p s1.time.rt)
    subs := s1.subs.set p (.fill 24 .none)
    settings := s1.settings.releasePort p
    disc := { s1.disc with unlockSeen := s1.disc.unlockSeen.set p false }
    rings := s1.rings.set p .reset
    vectors := s1.vectors.set p .reset
    ports := s1.ports.upd p (PortState.reset9 s1.time.rt s1.load.isSome) }

/-- PORT RESET: the one check of R197; a passing request writes no outcome of its own. -/
def execPortReset (p : Port) (args : List Byte) (s : State) : Host.Outcome State Fault Refusal :=
  .next (if args.length ≠ 0 then request p 0x03#8 s fun s => refuse s .badArgument
    else if s.takesFrames p then portResetOf p s else frameEnd p s)

/-- PRSTn_p low. -/
def pullPrstn (p : Port) (s : State) : State :=
  { s with ports := s.ports.upd p fun q => { q with prstnLow := true } }

/-- PRSTN_FALL: at a falling edge of PRSTn_p the frame in progress is discarded and port p is reset (R195). -/
def prstnFall (p : Port) (s : State) : State :=
  if (s.ports.get p).prstnLow then s
  else
    let s1 := pullPrstn p s
    if s.powered then portResetOf p s1 else s1

def execPrstnFall (p : Port) (s : State) : Host.Outcome State Fault Refusal := .next (prstnFall p s)

/-- Nothing but PRSTn_p and the frame in progress keeps a receiver from beginning frames: supply is applied, RESETn is high and no
settings load is awaited (R183). -/
def State.portsOpen (s : State) : Bool := s.powered && !s.resetnLow && s.load.isNone

/-- PRSTN_RISE: the hold of port p ends; a frame whose CSn_p fell before the rise is not received, and frames begin again at the
first fall of CSn_p after it (R195). -/
def prstnRise (p : Port) (begun : Bool) (s : State) : State :=
  if (s.ports.get p).prstnLow then
    { s with ports := s.ports.upd p fun q =>
        { q with prstnLow := false, receiver := .idle, missed := begun && s.portsOpen } }
  else s

def execPrstnRise (rise : LineRise) (s : State) : Host.Outcome State Fault Refusal :=
  .next (prstnRise rise.port rise.begun s)

/-! ## Hub reset -/

/-- The discipline unit at a hub reset: F is kept (R35); the configuration and the profile stand until the load, which is the model's
choice (notes/assumptions/29.md). -/
def Discipline.hubReset (d : Discipline) : Discipline :=
  { Discipline.reset with cfg := d.cfg, profile := d.profile, f := d.f }

/-- The pin unit at a hub reset: no claims, every OUT pin of the map in force at its safe level, with no check (R90). -/
def PinCell.hubReset (c : PinCell) : PinCell :=
  ⟨c.map, none, if c.map.dir = .output then some c.map.safe else none, none⟩

/-- A port at a hub reset (R199). The default lease period stands until the load, which is the model's choice
(notes/assumptions/29.md). -/
def PortState.hubReset (q : PortState) : PortState :=
  { q with receiver := .idle, sdo := [], missed := false, result := .empty, leasePeriodMs := 0, lease := .none }

/-- The load that follows a hub reset: at once after one by request, at the rise of RESETn after one by the line (R199). A load that
is awaited already after a power-on stays one (notes/assumptions/15.md). -/
def loadAfterReset (byRequest : Bool) (o : Option LoadKind) : LoadKind :=
  match o with
  | some .powerOn => .powerOn
  | some (.hubReset _) => .hubReset byRequest
  | none => .hubReset byRequest

/-- A hub reset: every block's hub reset values (R199). HT, RT, the epoch, F and the fault log are kept. The late threshold (R70), the
quotas and the frozen flag (R182), which the manual gives "from the settings load", keep their values until the load: the model's
choice (notes/assumptions/29.md). -/
def hubResetAll (byRequest : Bool) (s : State) : State :=
  { s with
    load := some (loadAfterReset byRequest s.load)
    disc := s.disc.hubReset
    sched := { Schedule.reset with lateThreshold := s.sched.lateThreshold }
    pins := s.pins.map PinCell.hubReset
    watch := .fill 24 none
    subs := .fill 4 (.fill 24 .none)
    rings := .fill 4 .reset
    vectors := .fill 4 .reset
    settings := { s.settings.abandonWrite with holder := none, requester := none }
    ports := s.ports.map PortState.hubReset }

/-- The checks of R198 in order. -/
def hubResetCheck (p : Port) (args : List Byte) (s : State) : Option Status :=
  if args.length ≠ 0 then some .badArgument
  else if !s.holdsSettings p then some .notPermitted
  else if s.settings.store.isWriting then some .storeBusy
  else none

/-- HUB RESET: a passing request writes no outcome of its own (R198). -/
def execHubReset (p : Port) (args : List Byte) (s : State) : Host.Outcome State Fault Refusal :=
  .next (match hubResetCheck p args s with
    | some st => request p 0x66#8 s fun s => refuse s st
    | none => if s.takesFrames p then hubResetAll true s else frameEnd p s)

/-- RESETN_FALL: a falling edge of RESETn is a hub reset (R199). -/
def resetnFall (s : State) : State :=
  if s.resetnLow then s
  else
    let s1 := { s with resetnLow := true }
    if s.powered then hubResetAll false s1 else s1

def execResetnFall (s : State) : Host.Outcome State Fault Refusal := .next (resetnFall s)

/-- RESETN_RISE: the hold of the receivers ends and the settings load may follow (R199). -/
def execResetnRise (s : State) : Host.Outcome State Fault Refusal := .next { s with resetnLow := false }

/-! ## Supply -/

/-- The power-on values of every block. What does not depend on supply is kept: the image, the levels of the reset lines, and
the model's own queue and counter (R182, R200). -/
def powerOnValues (s : State) : State :=
  { State.reset with
    resetnLow := s.resetnLow
    settings := { SettingsUnit.reset with image := s.settings.abandonWrite.image }
    ports := s.ports.map fun q => { PortState.reset with prstnLow := q.prstnLow }
    choices := s.choices
    pending := s.pending }

def execPowerOn (s : State) : Host.Outcome State Fault Refusal := .next (powerOnValues s)

/-- POWER_LOSS: a write in progress is abandoned and its image is invalid at the next load; nothing else outlasts the supply
(R181). -/
def powerLoss (s : State) : State := if s.powered then { powerOnValues s with powered := false } else s

def execPowerLoss (s : State) : Host.Outcome State Fault Refusal := .next (powerLoss s)

def execIdentify (p : Port) (args : List Byte) (s : State) : Host.Outcome State Fault Refusal :=
  .next (request p 0x01#8 s (identify p args))

def execPortStatus (p : Port) (args : List Byte) (s : State) : Host.Outcome State Fault Refusal :=
  .next (request p 0x02#8 s (portStatus p args))

def execLeaseSet (p : Port) (args : List Byte) (s : State) : Host.Outcome State Fault Refusal :=
  .next (request p 0x04#8 s (leaseSet p args))

def execLeaseRenew (p : Port) (args : List Byte) (s : State) : Host.Outcome State Fault Refusal :=
  .next (request p 0x05#8 s (leaseRenew p args))

end Sys2Proof.Machine
end

