-- ==== Sys2Proof/Machine/Dispatch.lean ====
section
/-! DEFINITION. One arm per command: the meaning that carries it out. -/

namespace Sys2Proof.Machine

def exec (i : Instr) (s : State) : Host.Outcome State Fault Refusal :=
  match i with
  | .powerOn => Sys2Proof.Machine.execPowerOn s
  | .resetnFall => Sys2Proof.Machine.execResetnFall s
  | .settingsLoad seen => Sys2Proof.Machine.execSettingsLoad seen s
  | .prstnFall p => Sys2Proof.Machine.execPrstnFall p s
  | .advance => Sys2Proof.Machine.execAdvance s
  | .expiry => Sys2Proof.Machine.execExpiry s
  | .activeEdge change => Sys2Proof.Machine.execActiveEdge change s
  | .miss => Sys2Proof.Machine.execMiss s
  | .transition pin level => Sys2Proof.Machine.execTransition pin level s
  | .debounceWindowEnd pin level => Sys2Proof.Machine.execDebounceWindowEnd pin level s
  | .contentionCheck pin level => Sys2Proof.Machine.execContentionCheck pin level s
  | .leaseExpiry p => Sys2Proof.Machine.execLeaseExpiry p s
  | .storeCompletion verified => Sys2Proof.Machine.execStoreCompletion verified s
  | .holdNotice => Sys2Proof.Machine.execHoldNotice s
  | .badFrame p bytes trailing => Sys2Proof.Machine.execBadFrame p bytes trailing s
  | .unknownRequest p code args => Sys2Proof.Machine.execUnknownRequest p code args s
  | .resultRead p => Sys2Proof.Machine.execResultRead p s
  | .identify p args => Sys2Proof.Machine.execIdentify p args s
  | .portStatus p args => Sys2Proof.Machine.execPortStatus p args s
  | .portReset p args => Sys2Proof.Machine.execPortReset p args s
  | .leaseSet p args => Sys2Proof.Machine.execLeaseSet p args s
  | .leaseRenew p args => Sys2Proof.Machine.execLeaseRenew p args s
  | .timeRead p args => Sys2Proof.Machine.execTimeRead p args s
  | .timeReadScaled p args => Sys2Proof.Machine.execTimeReadScaled p args s
  | .timeSet p args => Sys2Proof.Machine.execTimeSet p args s
  | .refConfigure p args => Sys2Proof.Machine.execRefConfigure p args s
  | .disciplineProfile p args => Sys2Proof.Machine.execDisciplineProfile p args s
  | .disciplineStatus p args => Sys2Proof.Machine.execDisciplineStatus p args s
  | .scheduleAt p args => Sys2Proof.Machine.execScheduleAt p args s
  | .scheduleOnEdge p args => Sys2Proof.Machine.execScheduleOnEdge p args s
  | .cancel p args => Sys2Proof.Machine.execCancel p args s
  | .entryQuery p args => Sys2Proof.Machine.execEntryQuery p args s
  | .scheduleList p args => Sys2Proof.Machine.execScheduleList p args s
  | .hold p args => Sys2Proof.Machine.execHold p args s
  | .resume p args => Sys2Proof.Machine.execResume p args s
  | .scheduleConfigure p args => Sys2Proof.Machine.execScheduleConfigure p args s
  | .pinConfigure p args level => Sys2Proof.Machine.execPinConfigure p args level s
  | .pinClaim p args => Sys2Proof.Machine.execPinClaim p args s
  | .pinRelease p args => Sys2Proof.Machine.execPinRelease p args s
  | .pinWrite p args => Sys2Proof.Machine.execPinWrite p args s
  | .pinRead p args => Sys2Proof.Machine.execPinRead p args s
  | .subscribe p args => Sys2Proof.Machine.execSubscribe p args s
  | .eventRead p args => Sys2Proof.Machine.execEventRead p args s
  | .ringConfigure p args => Sys2Proof.Machine.execRingConfigure p args s
  | .vectorConfigure p args => Sys2Proof.Machine.execVectorConfigure p args s
  | .vectorAck p args => Sys2Proof.Machine.execVectorAck p args s
  | .notifyControl p args => Sys2Proof.Machine.execNotifyControl p args s
  | .vectorRead p args => Sys2Proof.Machine.execVectorRead p args s
  | .faultRead p args => Sys2Proof.Machine.execFaultRead p args s
  | .faultClear p args => Sys2Proof.Machine.execFaultClear p args s
  | .faultConfigure p args => Sys2Proof.Machine.execFaultConfigure p args s
  | .faultRecordClear p args => Sys2Proof.Machine.execFaultRecordClear p args s
  | .settingsClaim p args => Sys2Proof.Machine.execSettingsClaim p args s
  | .settingsRelease p args => Sys2Proof.Machine.execSettingsRelease p args s
  | .portLimitsSet p args => Sys2Proof.Machine.execPortLimitsSet p args s
  | .settingsRead p args => Sys2Proof.Machine.execSettingsRead p args s
  | .storeWrite p args => Sys2Proof.Machine.execStoreWrite p args s
  | .storeFreeze p args => Sys2Proof.Machine.execStoreFreeze p args s
  | .hubReset p args => Sys2Proof.Machine.execHubReset p args s
  | .prstnRise rise => Sys2Proof.Machine.execPrstnRise rise s
  | .resetnRise => Sys2Proof.Machine.execResetnRise s
  | .powerLoss => Sys2Proof.Machine.execPowerLoss s

end Sys2Proof.Machine
end

