-- ==== Sys2Proof/Machine/Step.lean ====
section
/-! DEFINITION. One step: the command at the front of the queue is taken and carried out on the state with the queue's rest; on an
empty queue the hub idles (notes/assumptions/3.md). -/

namespace Sys2Proof.Machine

/-- The front command's effect, or idling on an empty queue. -/
def step (s : State) : Host.Outcome State Fault Refusal :=
  match s.pending with
  | [] => .next s
  | i :: rest => exec i { s with pending := rest }

/-- The state with the command that a word spells put at the front of the queue; unchanged where the word spells none. -/
def State.withFetchWord (s : State) (nbits w : Nat) : State :=
  match decodeTableWord nbits w with
  | none => s
  | some i => { s with pending := i :: s.pending }

end Sys2Proof.Machine
end

