-- ==== Sys2Proof/Safety.lean ====
section
/-! DEFINITION. What the statements speak of: what counts as a run that the hardware has (`quiet`, `fits`), what an operation may
change (`LogOnly`, `FireOnly`, `EdgeOnly`), the invariants of the manual, and its tables of values at resets. -/

namespace Sys2Proof.Safety

open Sys2Proof.Machine

/-! ## Runs

The table lists the events that an advance brings as commands of their own; the hardware takes them all before its next advance
(R2, R45, R95). `quiet` says that none is owed, and `fits` that a command comes in its place (notes/assumptions/4.md). -/

/-- A store write has reached the end of the span in which it completes (R178). -/
def writeOverdue (s : State) : Bool :=
  match s.settings.store with
  | .valid => false
  | .invalid => false
  | .writing _ takenAt _ => decide (takenAt + writeMaxNs ≤ s.time.rt)

/-- No event is owed: no expiry, miss, window end, contention check, lease expiry or store completion has come due, no hold notice
waits, and no settings load is to follow at once a hub reset by request (R199). -/
def quiet (s : State) : Bool :=
  !s.expiryDue && !s.missDue && (allPins.all fun k => (s.windowDue k).isNone && !s.checkDue k) &&
    (allPorts.all fun p => !s.leaseDue p) && !writeOverdue s && decide (s.sched.holdNotices = 0) &&
    decide (s.load ≠ some (.hubReset true))

/-- A command in its place: it can be sent at all (WellFormed), an advance comes only when no event is owed, and an expiry that is
owed comes before any other command. -/
def fits (i : Instr) (s : State) : Bool :=
  i.wf &&
    match i with
    | .advance => quiet s
    | .expiry => true
    | _ => !s.expiryDue

/-- A run all of whose commands come in their places: the commands that wait, taken one after another. -/
def runFits : Nat → State → Bool
  | 0, _ => true
  | n + 1, s =>
    match s.pending with
    | [] => true
    | i :: rest =>
      fits i { s with pending := rest } &&
        match step s with
        | .next t => runFits n t
        | .fault _ => false
        | .refused _ => false

/-! ## What an operation may change -/

/-- Only the fault log, the rings, the vectors, the free-value counter and the count of hold notices may differ: the footprint of
fault occurrences and postings. -/
structure LogOnly (s t : State) : Prop where
  eq : t = { s with
    sched := { s.sched with holdNotices := t.sched.holdNotices }
    rings := t.rings
    vectors := t.vectors
    faults := t.faults
    choices := t.choices }

/-- As `LogOnly`, and also the entries and the pins may differ: the footprint of expiries and purges. -/
structure FireOnly (s t : State) : Prop where
  eq : t = { s with
    sched := { s.sched with armed := t.sched.armed, waiting := t.sched.waiting, holdNotices := t.sched.holdNotices }
    pins := t.pins
    rings := t.rings
    vectors := t.vectors
    faults := t.faults
    choices := t.choices }

/-- As `FireOnly`, and also the discipline unit, the time counter and the watch records may differ: the footprint of reference
edges and forward steps. -/
structure EdgeOnly (s t : State) : Prop where
  eq : t = { s with
    time := t.time
    disc := t.disc
    sched := { s.sched with armed := t.sched.armed, waiting := t.sched.waiting, holdNotices := t.sched.holdNotices }
    pins := t.pins
    watch := t.watch
    rings := t.rings
    vectors := t.vectors
    faults := t.faults
    choices := t.choices }

/-! ## Counts and records -/

/-- A count that saturates at 255, after one more. -/
def bumped (n : Nat) : Nat := min 255 (n + 1)

/-- The occurrence count of a fault kind. -/
def countOf (s : State) (k : FaultKind) : Nat := (s.faults.cells.get k.idx).count

/-- The record as the ring of `p` holds it when it is appended: with the ring's pending-drop count as its dropped count (R126). -/
def asAppended (s : State) (p : Port) (r : Record) : Record := { r with dropped := (s.rings.get p).pendingDrops }

/-- The ring of `p` in `t` holds what it held in `s`, then this record, and then whatever the same event posted after it. -/
def Appended (s t : State) (p : Port) (r : Record) : Prop :=
  ∃ later, (t.rings.get p).records = (s.rings.get p).records ++ asAppended s p r :: later

/-- The ring of `p` in `t` holds, behind what it held in `s`, this record with some dropped count. -/
def Posted (s t : State) (p : Port) (r : Record) : Prop :=
  ∃ (before later : List Record) (drops : Nat),
    (t.rings.get p).records = (s.rings.get p).records ++ before ++ { r with dropped := drops } :: later

/-- The ring of `p` in `t` holds what it held in `s`, then records with these bodies in this order, posted at the event of `s` (LATE
clear, LOCKED and the stamp as in `s`: R6, R124), and then whatever the same event posted after them. -/
def PostedAll (s t : State) (p : Port) (bodies : List RecordBody) : Prop :=
  ∃ added later, (t.rings.get p).records = (s.rings.get p).records ++ added ++ later ∧ added.map (·.body) = bodies ∧
    ∀ r ∈ added, r.late = false ∧ r.locked = decide (s.disc.state = .locked) ∧ r.ht = s.time.ht ∧ r.epoch = s.time.epoch

/-- Where the port's notify enable is on, the vector to which its class map sends the class is not IDLE (R139, R141). -/
def ClassRaised (s t : State) (p : Port) (c : RaiseClass) : Prop :=
  (s.vectors.get p).enable = true →
    ((t.vectors.get p).vecs.get ((s.vectors.get p).classMap.get c.idx)).state ≠ .idle

/-- R29: a change of the discipline state from `old` to `new` is reported to each port whose ring selects DISCIPLINE: a record with
last e, stamped at the event, in a ring with `room` free places, and the class raise. -/
structure ChangeReported (room : Nat) (old new : DiscState) (e : Int) (s t : State) : Prop where
  record : ∀ p, (s.rings.get p).selDiscipline = true → (s.rings.get p).records.length + room ≤ 32 →
    Posted s t p ⟨.discipline old new e, 0, false, decide (new = .locked), s.time.ht, s.time.epoch⟩
  raise : ∀ p, (s.rings.get p).selDiscipline = true → ClassRaised s t p .discipline

/-- No DISCIPLINE record joins the ring of `p`. -/
def NoChangeReported (s t : State) (p : Port) : Prop :=
  ∀ added, (t.rings.get p).records = (s.rings.get p).records ++ added →
    ∀ r ∈ added, ∀ old new e, r.body ≠ .discipline old new e

/-- The number of CAPTURE records in a list. -/
def captures (l : List Record) : Nat :=
  (l.filter fun r => match r.body with
    | .capture _ _ => true
    | _ => false).length

/-- What an edge of pin `k` brings to every ring (R99, R125): one CAPTURE record to a subscriber whose ring has room, and to no other
ring one. -/
def CapturedBySubscribers (k : Pin) (ed : Edge) (s t : State) : Prop :=
  ∀ (p : Port) (added : List Record), (t.rings.get p).records = (s.rings.get p).records ++ added →
    captures added =
      if ((s.subs.get p).get k).includes ed = true ∧ (s.rings.get p).records.length < 32 then 1 else 0

/-! ## Drives -/

/-- A pin driven to a level at an RT count (R72, R73, R87): for an OUT pin, a level that differs from the driven level is a change,
which starts the contention check 2,000 ns on; an equal level, or a pin that is not OUT, changes nothing. -/
def drivenCell (rt : Nat) (level : Level) (c : PinCell) : PinCell :=
  if c.map.dir = .output ∧ c.driven ≠ some level then { c with driven := some level, check := some (rt + 2000) } else c

/-! ## Firings -/

/-- R51: LATE_FIRE where the lateness exceeds the late threshold, with the owner, the tag, the slot and the lateness; `first` says
that no other occurrence of the event comes before it. -/
structure LateFired (a : Armed) (lateness : Nat) (first : Prop) (s t : State) : Prop where
  counted : countOf t .lateFire =
    if s.sched.lateThreshold < lateness then bumped (countOf s .lateFire) else countOf s .lateFire
  captured : first → s.sched.lateThreshold < lateness → (s.faults.cells.get 4).masked = false → s.faults.capture = none →
    t.faults.capture = some ⟨.lateFire, s.time.ht, s.time.epoch, some a.entry.owner,
      .lateFire a.entry.tag a.entry.slot lateness⟩

/-- A complete firing of `a`, which `s` has taken off its armed list: the drive (R47), the continuation (R52, R53, R114), the FIRED
record with its mark test (R49, R127), the entry's raise (R50) and LATE_FIRE (R51). -/
structure Fires (a : Armed) (lateness : Nat) (s t : State) : Prop where
  footprint : FireOnly s t
  drive : t.pins = match a.entry.action with
    | .set k level => s.pins.upd k (drivenCell s.time.rt level)
    | .pulse k level _ => s.pins.upd k (drivenCell s.time.rt (!level))
    | .notify => s.pins
  continues : (t.sched.armed, t.sched.waiting) = match (a.continuation s.time.ht).after with
    | .removed => (s.sched.armed, s.sched.waiting)
    | .again due kind => (insertArmed ⟨{ a.entry with kind := kind }, due, .lead⟩ s.sched.armed, s.sched.waiting)
    | .waits kind => (s.sched.armed, s.sched.waiting ++ [{ a.entry with kind := kind }])
  record : a.entry.report = true → (s.rings.get a.entry.owner).records.length < 32 →
    Appended s t a.entry.owner ⟨.fired a.entry.tag a.entry.slot a.phase.name (min (a.carriedLateness lateness) 4294967295)
      (min (a.continuation s.time.ht).skipped 65535) (a.continuation s.time.ht).remaining, 0,
      decide (0 < a.carriedLateness lateness), decide (s.disc.state = .locked), s.time.ht, s.time.epoch⟩
  unreported : a.entry.report = false → lateness ≤ s.sched.lateThreshold → t.rings = s.rings
  otherRings : lateness ≤ s.sched.lateThreshold → (s.rings.get a.entry.owner).records.length < 32 →
    ∀ q, q ≠ a.entry.owner → t.rings.get q = s.rings.get q
  raises : lateness ≤ s.sched.lateThreshold →
    (a.entry.report = true → (s.rings.get a.entry.owner).records.length < 32) →
    t.faults = s.faults ∧ ∀ marked : State, marked =
        (if a.entry.report = true ∧ (s.rings.get a.entry.owner).records.length = (s.rings.get a.entry.owner).mark then
          raiseClass a.entry.owner .ringMark s else s) →
      t.vectors = match a.entry.vector with
        | none => marked.vectors
        | some v => marked.vectors.upd a.entry.owner (NotifyUnit.raise v)
  raised : ∀ v, a.entry.vector = some v → (s.vectors.get a.entry.owner).enable = true →
    ((t.vectors.get a.entry.owner).vecs.get v).state ≠ .idle
  late : LateFired a lateness (a.entry.report = true → (s.rings.get a.entry.owner).records.length < 32) s t

/-- The LEAD of a PULSE entry, which `s` has taken off its armed list: the drive, the entry back as TRAIL, and LATE_FIRE, with no
record and no raise of its own (R47, R48, R51). -/
structure Leads (a : Armed) (k : Pin) (level : Level) (width lateness : Nat) (s t : State) : Prop where
  footprint : FireOnly s t
  drive : t.pins = s.pins.upd k (drivenCell s.time.rt level)
  trail : t.sched.armed =
    insertArmed ⟨a.entry, min (a.due + width) (2 ^ 64 - 1), .trail lateness⟩ s.sched.armed ∧
      t.sched.waiting = s.sched.waiting
  silent : lateness ≤ s.sched.lateThreshold → t.rings = s.rings ∧ t.vectors = s.vectors ∧ t.faults = s.faults
  late : LateFired a lateness True s t

/-- R45, R46: the lateness of an expiry of `a`: 0 at the advance that reaches its due, and HT minus the due where it is late. -/
def latenessOf (late : Bool) (a : Armed) (s : State) : Nat := if late then s.time.ht - a.due else 0

/-- R45, R46, R54, R55: from `s` on, `n` heads of the armed list whose dues HT has reached expire one after another in list order,
each taken off the list and handed on whole before the next, and in `t` no head is due. -/
inductive ExpiresInOrder (late : Bool) : Nat → State → State → Prop
  | done (s : State) : (∀ a rest, s.sched.armed = a :: rest → s.time.ht < a.due) → ExpiresInOrder late 0 s s
  /-- The LEAD of a PULSE. -/
  | lead (n : Nat) (s m t : State) (a : Armed) (rest : List Armed) (k : Pin) (level : Level) (width : Nat) :
      s.sched.armed = a :: rest → a.due ≤ s.time.ht → a.entry.action = .pulse k level width → a.phase = .lead →
      Leads a k level width (latenessOf late a s) { s with sched := { s.sched with armed := rest } } m →
      ExpiresInOrder late n m t → ExpiresInOrder late (n + 1) s t
  /-- Every other expiry, which is a complete firing. -/
  | fire (n : Nat) (s m t : State) (a : Armed) (rest : List Armed) :
      s.sched.armed = a :: rest → a.due ≤ s.time.ht →
      (∀ k level width, a.entry.action = .pulse k level width → a.phase ≠ .lead) →
      Fires a (latenessOf late a s) { s with sched := { s.sched with armed := rest } } m →
      ExpiresInOrder late n m t → ExpiresInOrder late (n + 1) s t

/-- The entries of a port on a pin in the order of SCHEDULE LIST: the ARMED ones in armed-list order, then the WAITING ones queue by
queue (R59, R67). -/
def entriesOnPin (p : Port) (k : Pin) (c : Schedule) : List Entry :=
  (c.armed.map (·.entry)).filter (Entry.drives p k) ++ (c.waitingOf p).filter (Entry.drives p k)

/-- The bodies of the records that a lease expiry of `p` posts to its ring: for each pin it holds, ascending, the CANCELLED records
of its entries there and CLAIM_LOST, and then CLAIM_LOST for the settings claim (R67, R81, R193). -/
def leaseRecords (p : Port) (s : State) : List RecordBody :=
  ((allPins.filter fun k => s.holdsPin p k).flatMap fun k =>
      (entriesOnPin p k s.sched).map (fun e => .cancelled e.tag e.slot .lease) ++ [.claimLost (some k)]) ++
    (if s.settings.holder = some p then [.claimLost none] else [])

/-! ## Invariants -/

/-- R159: FAULTn is low exactly while an unmasked kind of major severity has a count above 0. -/
abbrev FaultLineTied (s : State) : Prop :=
  s.faults.faultnLow = true ↔
    ∃ k : Fin 11, (s.faults.cells.get k).masked = false ∧ (s.faults.cells.get k).severity = .major ∧
      (s.faults.cells.get k).count ≠ 0

/-- R143: the NOTIFYn line of a port is low exactly while one of its vectors is ACTIVE. -/
abbrev NotifyLineTied (n : NotifyUnit) : Prop :=
  n.notifynLow = true ↔ ∃ v : VecNo, (n.vecs.get v).state = .active

/-- The four ties of R138 for one vector. -/
abbrev VectorTied (n : NotifyUnit) (v : VecNo) : Prop :=
  ((n.vecs.get v).state = .idle → (n.vecs.get v).count = 0) ∧
    ((n.vecs.get v).state ≠ .idle → 1 ≤ (n.vecs.get v).count ∧ (n.vecs.get v).count ≤ 255) ∧
    ((n.vecs.get v).state ≠ .idle →
      ((n.vecs.get v).state = .active ↔ (n.vecs.get v).masked = false ∧ n.functionMask = false)) ∧
    (n.enable = false → (n.vecs.get v).state = .idle)

/-- The lines and vectors of every port stand as R138 and R143 tie them. -/
abbrev VectorsTied (s : State) : Prop :=
  ∀ p : Port, NotifyLineTied (s.vectors.get p) ∧ ∀ v : VecNo, VectorTied (s.vectors.get p) v

/-- R121: no ring holds more than 32 records; the mark is 0 to 31, the pending-drop count and each dropped count 0 to 255. -/
abbrev RingsBounded (s : State) : Prop :=
  ∀ p : Port, (s.rings.get p).records.length ≤ 32 ∧ (s.rings.get p).mark ≤ 31 ∧ (s.rings.get p).pendingDrops ≤ 255 ∧
    ∀ r ∈ (s.rings.get p).records, r.dropped ≤ 255

/-- R44: the armed list is in ascending due order. -/
abbrev ArmedSorted (s : State) : Prop := s.sched.armed.Pairwise fun a b => a.due ≤ b.due

/-- R45: in RUN each ARMED entry has a due greater than the HT count. -/
abbrev DuesAhead (s : State) : Prop := s.sched.held = false → ∀ a ∈ s.sched.armed, s.time.ht < a.due

/-- Before the settings load after a reset the schedule holds no entry, no pin is claimed and the discipline state is FREERUN
(R70, R90, R16). -/
abbrev EmptyBeforeLoad (s : State) : Prop :=
  s.load ≠ none → s.sched.live = [] ∧ (∀ k : Pin, (s.pins.get k).holder = none) ∧ s.disc.state = .freerun

/-- R72, R74: an OUT pin and no other has a driven level; only an OUT pin has a claim holder or a contention check; an OUT pin
without a holder, and every OUT pin while the schedule is HELD, is driven to its safe level. -/
abbrev PinTied (held : Bool) (c : PinCell) : Prop :=
  (c.driven ≠ none ↔ c.map.dir = .output) ∧ (c.holder ≠ none → c.map.dir = .output) ∧
    (c.check ≠ none → c.map.dir = .output) ∧
    (c.map.dir = .output → c.holder = none ∨ held = true → c.driven = some c.map.safe)

/-- R72, R74: every pin is tied so, and every entry that drives a pin is owned by that pin's claim holder. -/
abbrev PinsTied (s : State) : Prop :=
  (∀ k : Pin, PinTied s.sched.held (s.pins.get k)) ∧
    (∀ e ∈ s.sched.live, ∀ k : Pin, e.action.outPin = some k → (s.pins.get k).holder = some e.owner) ∧
    EmptyBeforeLoad s

/-- R38, R39, R172: no two live entries share a slot, none of one owner share a tag, and no port's holdings exceed its quota; the
four quotas sum to 64 or less. -/
abbrev SlotsTied (s : State) : Prop :=
  (s.sched.live.map (·.slot)).Nodup ∧ (s.sched.live.map fun e => (e.owner, e.tag)).Nodup ∧
    (∀ p : Port, s.sched.holdings p ≤ s.settings.quotas.get p) ∧
    s.settings.quotas.get 0 + s.settings.quotas.get 1 + s.settings.quotas.get 2 + s.settings.quotas.get 3 ≤ 64 ∧
    EmptyBeforeLoad s

/-- R92, R104, R106, R120: from the load on, a pin has a watch record exactly while it is IN, and in IDLE its sensed level is its
confirmed level; the in pin of every live EDGE entry is IN. -/
abbrev WatchTied (s : State) : Prop :=
  (∀ k : Pin, s.watch.get k ≠ none ↔ s.load = none ∧ (s.pins.get k).map.dir = .input) ∧
    (∀ k : Pin, ∀ w ∈ s.watch.get k, w.window = none → w.sensed = w.confirmed) ∧
    (∀ e ∈ s.sched.live, ∀ k : Pin, e.inPin = some k → (s.pins.get k).map.dir = .input) ∧ EmptyBeforeLoad s

/-- R191, R172: the lease state is NONE exactly while the period is 0; the periods lie in their range; in EXPIRED the port holds no
pin claim and not the settings claim. -/
abbrev LeasesTied (s : State) : Prop :=
  ∀ p : Port,
    ((s.ports.get p).lease = .none ↔ (s.ports.get p).leasePeriodMs = 0) ∧
      leaseInRange (s.ports.get p).leasePeriodMs = true ∧ leaseInRange (s.ports.get p).defaultLeaseMs = true ∧
      ((s.ports.get p).lease = .expired →
        s.settings.holder ≠ some p ∧ ∀ k : Pin, (s.pins.get k).holder ≠ some p)

/-- R183, R195, R199: between commands every receiver is idle, and a frame is missed only where nothing but that frame keeps the
port from beginning one. -/
abbrev ReceiversTied (s : State) : Prop :=
  ∀ p : Port, (s.ports.get p).receiver = .idle ∧
    ((s.ports.get p).missed = true →
      s.powered = true ∧ s.resetnLow = false ∧ s.load = none ∧ (s.ports.get p).prstnLow = false)

/-- A state in which S is 0: FREERUN, SEARCH or HOLDOVER (R22, R23, R31, R35). -/
abbrev Untrimmed (d : DiscState) : Prop := d = .freerun ∨ d = .search ∨ d = .holdover

/-- The ranges of 02_reference_discipline.md, State of the discipline unit, and R22: the trims within their limits, S = 0 where
no window runs, a window shorter than its length, the pair count 0 or 1, Tref in its range and last e in its. -/
abbrev DisciplineTied (s : State) : Prop :=
  (-200000 ≤ s.disc.f ∧ s.disc.f ≤ 200000) ∧ (-50000 ≤ s.disc.s ∧ s.disc.s ≤ 50000) ∧
    (Untrimmed s.disc.state → s.disc.s = 0 ∧ s.disc.window = []) ∧
    (s.disc.state = .acquire → s.disc.window.length ≤ 3) ∧ s.disc.window.length ≤ 15 ∧ s.disc.pairCount ≤ 1 ∧
    (¬Untrimmed s.disc.state → s.disc.pairCount = 0) ∧ s.disc.missCount ≤ 255 ∧
    (1000 ≤ s.disc.cfg.trefUs ∧ s.disc.cfg.trefUs ≤ 1000000) ∧
    (-500000000 ≤ s.disc.lastE ∧ s.disc.lastE ≤ 500000000) ∧
    (-500000000 ≤ s.disc.lastEBefore ∧ s.disc.lastEBefore ≤ 500000000) ∧ (s.load ≠ none → s.disc.state = .freerun)

/-! ## The discipline unit's table of transitions -/

/-- The state after an accepted edge with phase error e (02_reference_discipline.md, The states; R22 to R27). -/
def nextDiscState (d : Discipline) (e : Int) : DiscState :=
  match d.state with
  | .freerun => .freerun
  | .search => if d.pairCount = 0 then .search else .acquire
  | .holdover => if d.pairCount = 0 then .holdover else if e.natAbs ≤ d.profile.acqIn then .track else .acquire
  | .acquire =>
    if d.window.length < 3 then .acquire
    else if e < -(d.profile.stepTh : Int) ∧ d.cfg.stepEnable = true then .acquire
    else if ∀ x ∈ d.window ++ [e], x.natAbs ≤ d.profile.trkIn then .track
    else .acquire
  | .track =>
    if d.profile.acqIn < e.natAbs then .acquire
    else if d.window.length < 15 then .track
    else if ∀ x ∈ d.window ++ [e], x.natAbs ≤ d.profile.lockIn then .locked
    else .track
  | .locked => if d.profile.lockOut < e.natAbs then .track else .locked

/-- The state after a reference loss (the table of R21). -/
def stateAtLoss : DiscState → DiscState
  | .acquire => .search
  | .track => .holdover
  | .locked => .holdover
  | d => d

/-! ## Values at resets -/

/-- The values that the manual gives at power-on (R5, R35, R70, R90, R106, R136, R151, R166, R182, R200). -/
structure AtPowerOn (t : State) : Prop where
  time : t.time = ⟨0, 0, 0, 0, 0⟩
  freerun : t.disc.state = .freerun ∧ t.disc.missCount = 0 ∧ t.disc.pairCount = 0 ∧ t.disc.window = []
  trims : t.disc.lastE = 0 ∧ t.disc.f = 0 ∧ t.disc.s = 0 ∧ ∀ p, t.disc.unlockSeen.get p = false
  schedule : t.sched.armed = [] ∧ t.sched.waiting = [] ∧ t.sched.held = false
  pins : ∀ k, (t.pins.get k).map.dir = .unused ∧ (t.pins.get k).holder = none ∧ (t.pins.get k).driven = none ∧
    (t.pins.get k).check = none
  capture : (∀ k, t.watch.get k = none) ∧ ∀ p k, (t.subs.get p).get k = .none
  rings : ∀ p, t.rings.get p = ⟨[], 0, false, false, 0⟩
  vectors : ∀ p, (∀ v, (t.vectors.get p).vecs.get v = ⟨.idle, 0, true⟩) ∧ (∀ c, (t.vectors.get p).classMap.get c = 0) ∧
    (t.vectors.get p).enable = false ∧ (t.vectors.get p).functionMask = false ∧ (t.vectors.get p).notifynLow = false
  faults : (∀ k, t.faults.cells.get k = ⟨0, false, if 8 ≤ k.val then .major else .minor⟩) ∧ t.faults.capture = none ∧
    t.faults.overflow = false ∧ t.faults.safeOnMajor = true ∧ t.faults.faultnLow = false
  settings : t.settings.holder = none ∧ t.settings.requester = none
  ports : ∀ p, (t.ports.get p).receiver = .idle ∧ (t.ports.get p).sdo = [] ∧ (t.ports.get p).missed = false ∧
    (t.ports.get p).result = ⟨.none, 0x00#8, []⟩ ∧ (t.ports.get p).leasePeriodMs = 0 ∧ (t.ports.get p).lease = .none
  load : t.load = some .powerOn

/-- The outcome of a port reset of `p` on everything but the PRSTn line (R36, R69, R89, R105, R135, R149, R170, R181, R196). The
lease is started anew from the default period, for a port whose settings load has been taken. -/
structure AtPortReset (p : Port) (s t : State) : Prop where
  entries : t.sched = { s.sched with
    armed := s.sched.armed.filter fun a => decide (a.entry.owner ≠ p)
    waiting := s.sched.waiting.filter fun e => decide (e.owner ≠ p) }
  pinsHeld : ∀ k, (s.pins.get k).holder = some p →
    t.pins.get k = drivenCell s.time.rt (s.pins.get k).map.safe { s.pins.get k with holder := none }
  pinsKept : ∀ k, (s.pins.get k).holder ≠ some p → t.pins.get k = s.pins.get k
  subs : ∀ q k, (t.subs.get q).get k = if q = p then .none else (s.subs.get q).get k
  settings : t.settings = { s.settings with
    holder := if s.settings.holder = some p then none else s.settings.holder
    requester := if s.settings.requester = some p then none else s.settings.requester }
  unlockSeen : t.disc = { s.disc with unlockSeen := s.disc.unlockSeen.set p false }
  rings : ∀ q, t.rings.get q = if q = p then ⟨[], 0, false, false, 0⟩ else s.rings.get q
  vectors : ∀ v c, ((t.vectors.get p).vecs.get v = ⟨.idle, 0, true⟩) ∧ (t.vectors.get p).classMap.get c = 0 ∧
    (t.vectors.get p).enable = false ∧ (t.vectors.get p).functionMask = false ∧ (t.vectors.get p).notifynLow = false
  vectorsKept : ∀ q, q ≠ p → t.vectors.get q = s.vectors.get q
  buffer : (t.ports.get p).receiver = .idle ∧ (t.ports.get p).sdo = [] ∧ (t.ports.get p).missed = false ∧
    (t.ports.get p).result = ⟨.none, 0x00#8, []⟩ ∧
    (t.ports.get p).defaultLeaseMs = (s.ports.get p).defaultLeaseMs
  lease : s.load = none → (t.ports.get p).leasePeriodMs = (s.ports.get p).defaultLeaseMs ∧
    (t.ports.get p).lease = if (s.ports.get p).defaultLeaseMs = 0 then .none
      else .running (s.time.rt + (s.ports.get p).defaultLeaseMs * 1000000)
  portsKept : ∀ q, q ≠ p → t.ports.get q = s.ports.get q
  rest : t.powered = s.powered ∧ t.resetnLow = s.resetnLow ∧ t.load = s.load ∧ t.time = s.time ∧ t.watch = s.watch ∧
    t.faults = s.faults ∧ t.pending = s.pending

/-- The outcome of a hub reset on everything but the RESETn line (R5, R35, R70, R90, R106, R136, R150, R166, R181, R182, R199).
A write in progress is abandoned and leaves an image that the next load finds invalid. -/
structure AtHubReset (s t : State) : Prop where
  timeKept : t.time = s.time
  faultsKept : t.faults = s.faults
  disc : t.disc.state = .freerun ∧ t.disc.missCount = 0 ∧ t.disc.pairCount = 0 ∧ t.disc.window = [] ∧ t.disc.lastE = 0 ∧
    t.disc.s = 0 ∧ t.disc.f = s.disc.f ∧ ∀ p, t.disc.unlockSeen.get p = false
  schedule : t.sched.armed = [] ∧ t.sched.waiting = [] ∧ t.sched.held = false
  pins : ∀ k, (t.pins.get k).map = (s.pins.get k).map ∧ (t.pins.get k).holder = none ∧ (t.pins.get k).check = none ∧
    (t.pins.get k).driven = if (s.pins.get k).map.dir = .output then some (s.pins.get k).map.safe else none
  capture : (∀ k, t.watch.get k = none) ∧ ∀ p k, (t.subs.get p).get k = .none
  rings : ∀ p, t.rings.get p = ⟨[], 0, false, false, 0⟩
  vectors : ∀ p, (∀ v, (t.vectors.get p).vecs.get v = ⟨.idle, 0, true⟩) ∧ (∀ c, (t.vectors.get p).classMap.get c = 0) ∧
    (t.vectors.get p).enable = false ∧ (t.vectors.get p).functionMask = false ∧ (t.vectors.get p).notifynLow = false
  settings : t.settings.holder = none ∧ t.settings.requester = none ∧ t.settings.store.isWriting = false
  image : if s.settings.store.isWriting then t.settings.image.settings = none else t.settings.image = s.settings.image
  ports : ∀ p, (t.ports.get p).receiver = .idle ∧ (t.ports.get p).sdo = [] ∧ (t.ports.get p).missed = false ∧
    (t.ports.get p).result = ⟨.none, 0x00#8, []⟩ ∧ (t.ports.get p).leasePeriodMs = 0 ∧ (t.ports.get p).lease = .none ∧
    (t.ports.get p).prstnLow = (s.ports.get p).prstnLow
  load : t.load ≠ none
  rest : t.powered = s.powered ∧ t.pending = s.pending

/-- The working settings that a load puts in place (R90, R106, R167, R176, R191, R199). `levels` are the levels sensed then, and
`begun` the ports with a frame in progress, which is not received. -/
structure AtLoad (kind : LoadKind) (w : Settings) (levels : BitVec 24) (begun : BitVec 4) (s t : State) : Prop where
  taken : t.load = none
  pinMap : ∀ k, (t.pins.get k).map = w.pins.get k ∧ (t.pins.get k).holder = (s.pins.get k).holder
  driven : ∀ k, (t.pins.get k).driven = if (w.pins.get k).dir = .output then some (w.pins.get k).safe else none
  checks : ∀ k, (t.pins.get k).check =
    if (w.pins.get k).dir ≠ .output then none
    else if (s.pins.get k).map.dir = .output ∧ (s.pins.get k).driven = some (w.pins.get k).safe then (s.pins.get k).check
    else some (s.time.rt + 2000)
  watch : ∀ k, t.watch.get k =
    if (w.pins.get k).dir = .input then some ⟨none, levels.getLsbD k.val, levels.getLsbD k.val⟩ else none
  limits : t.settings.quotas = w.quotas ∧ t.settings.frozen = w.frozen ∧ t.settings.holder = s.settings.holder ∧
    t.settings.requester = s.settings.requester ∧ t.settings.image = s.settings.image
  leases : ∀ p, (t.ports.get p).defaultLeaseMs = w.leases.get p ∧ (t.ports.get p).leasePeriodMs = w.leases.get p ∧
    ((t.ports.get p).lease = if w.leases.get p = 0 then .none else .running (s.time.rt + w.leases.get p * 1000000)) ∧
    (t.ports.get p).result = (s.ports.get p).result
  receivers : ∀ p, (t.ports.get p).receiver = .idle ∧ (t.ports.get p).prstnLow = (s.ports.get p).prstnLow ∧
    (t.ports.get p).missed = (begun.getLsbD p.val && !(s.ports.get p).prstnLow)
  reference : t.disc.cfg = w.ref ∧ t.disc.profile = w.profile ∧ t.disc.f = s.disc.f ∧
    (w.ref.enabled = true → t.disc.state = .search ∧ t.disc.refPoint = s.time.rt ∧ t.disc.firstEdge = true) ∧
    (w.ref.enabled = false → t.disc.state = s.disc.state)
  schedule : t.sched.lateThreshold = w.lateThreshold ∧ t.sched.armed = s.sched.armed ∧ t.sched.waiting = s.sched.waiting ∧
    t.sched.held = s.sched.held
  policy : ∀ k, ((t.faults.cells.get k).masked, (t.faults.cells.get k).severity) =
    match kind with
    | .powerOn => (w.masks.get k, w.severities.get k)
    | .hubReset _ => ((s.faults.cells.get k).masked, (s.faults.cells.get k).severity)
  safeOnMajor : t.faults.safeOnMajor =
    match kind with
    | .powerOn => w.safeOnMajor
    | .hubReset _ => s.faults.safeOnMajor
  rest : t.powered = s.powered ∧ t.resetnLow = s.resetnLow ∧ t.time = s.time ∧ t.subs = s.subs ∧ t.pending = s.pending

/-- The built-in defaults as R177 lists them. -/
structure IsBuiltin (w : Settings) : Prop where
  pins : ∀ k, w.pins.get k = ⟨.unused, false, 0⟩
  quotas : ∀ p, w.quotas.get p = 16
  leases : ∀ p, w.leases.get p = 0
  ref : w.ref = ⟨false, 1000000, .rise, true⟩
  profile : w.profile = ⟨200, 500, 10000, 50000, 1000000⟩
  lateThreshold : w.lateThreshold = 10000
  masks : ∀ k, w.masks.get k = false
  severities : ∀ k : Fin 11, w.severities.get k = if 8 ≤ k.val then .major else .minor
  flags : w.safeOnMajor = true ∧ w.frozen = false

/-- The last 29 bytes of an ENTRY QUERY result: out pin, level, width, period, repeats, in pin, edge, offset, rearm, vector; a field
that the entry does not have is 0, an absent pin 0xFF (R58, R201, R203). -/
def queryTail (e : Entry) : List Byte :=
  (match e.action with
    | .set k level => [b1 k.val, bBool level, 0, 0, 0, 0]
    | .pulse k level width => [b1 k.val, bBool level] ++ beN 4 width
    | .notify => [0xFF, 0, 0, 0, 0, 0]) ++
  (match e.kind with
    | .timed none => List.replicate 10 0#8 ++ [0xFF#8] ++ List.replicate 11 0#8
    | .timed (some q) => beN 8 q.period ++ beN 2 q.repeats ++ [0xFF#8] ++ List.replicate 11 0#8
    | .edge k ed offset rearm => List.replicate 10 0#8 ++ [b1 k.val, match ed with | .rise => 0#8 | .fall => 1#8] ++
        beN 8 offset ++ beN 2 rearm) ++
  [match e.vector with | some v => b1 v.val | none => 0#8]

/-- The 24 bytes of an event record with `behind` records behind it in the ring (R204, with the codes of R201; that bits 7 to 2 of the
flags byte are 0 is the model's choice, notes/assumptions/30.md). -/
def recordLayout (behind : Nat) (r : Record) : List Byte :=
  let layout (kind : Nat) (a b c : Byte) (d skipped remaining : List Byte) : List Byte :=
    [b1 (kind + 8 * behind), b1 r.dropped, b1 ((if r.late then 1 else 0) + (if r.locked then 2 else 0)), a] ++
      beN 8 r.ht ++ beN 2 r.epoch.toNat ++ [b, c] ++ d ++ skipped ++ remaining
  let state : DiscState → Byte
    | .freerun => 0
    | .search => 1
    | .acquire => 2
    | .track => 3
    | .locked => 4
    | .holdover => 5
  match r.body with
  | .capture k ed => layout 1 (b1 k.val) (match ed with | .rise => 0 | .fall => 1) 0 [0, 0, 0, 0] [0, 0] [0, 0]
  | .fired tag slot phase lateness skipped remaining =>
    layout 2 tag (b1 slot.val) (match phase with | .lead => 0 | .trail => 1) (beN 4 lateness) (beN 2 skipped) (beN 2 remaining)
  | .cancelled tag slot reason =>
    layout 3 tag (b1 slot.val) (match reason with | .lease => 0 | .released => 1) [0, 0, 0, 0] [0, 0] [0, 0]
  | .claimLost pin => layout 4 (match pin with | some k => b1 k.val | none => 0xFF) 0 0 [0, 0, 0, 0] [0, 0] [0, 0]
  | .discipline old new e =>
    layout 5 (state old) (state new) 0 (beN 4 (e % 4294967296).toNat) [0, 0] [0, 0]
  | .fault kind severity =>
    layout 6 (b1 kind.idx.val) (match severity with | .minor => 0 | .major => 1) 0 [0, 0, 0, 0] [0, 0] [0, 0]
  | .storeDone done => layout 7 0 0 (if done then 0 else 1) [0, 0, 0, 0] [0, 0] [0, 0]

/-- The eight context bytes of a capture record (R153, R203). -/
def contextLayout : FaultContext → List Byte
  | .none => [0, 0, 0, 0, 0, 0, 0, 0]
  | .missCount n => beN 8 n
  | .interval ns => beN 8 ns
  | .phaseError e => beN 8 (e % 18446744073709551616).toNat
  | .stepAmount ns => beN 8 ns
  | .lateFire tag slot lateness => [tag, b1 slot.val] ++ beN 4 (min lateness 4294967295) ++ [0, 0]
  | .frame x0 x1 x2 x3 => [x0, x1, x2, x3, 0, 0, 0, 0]
  | .contention k driven => [b1 k.val, if driven then 1 else 0, 0, 0, 0, 0, 0, 0]

/-- The 20 bytes of the capture record: kind, HT, epoch, port, context; kind and port 0xFF and the rest 0 when none is held (R160,
R201, R203). -/
def captureLayout : Option CaptureRecord → List Byte
  | none => [0xFF] ++ List.replicate 10 0 ++ [0xFF] ++ List.replicate 8 0
  | some c => [b1 c.kind.idx.val] ++ beN 8 c.ht ++ beN 2 c.epoch.toNat ++
      [match c.port with | some p => b1 p.val | none => 0xFF#8] ++ contextLayout c.context

/-- Each field of the settings holds a value within the range the manual states for it (R31, R33, R60, R71, R172, R175). -/
structure InRange (w : Settings) : Prop where
  debounce : ∀ k, (w.pins.get k).debounceUs ≤ 1023
  quotaSum : w.quotas.get 0 + w.quotas.get 1 + w.quotas.get 2 + w.quotas.get 3 ≤ 64
  leases : ∀ p, w.leases.get p = 0 ∨ 10 ≤ w.leases.get p ∧ w.leases.get p ≤ 60000
  tref : 1000 ≤ w.ref.trefUs ∧ w.ref.trefUs ≤ 1000000
  profile : ∀ v ∈ [w.profile.lockIn, w.profile.lockOut, w.profile.trkIn, w.profile.acqIn, w.profile.stepTh],
    1 ≤ v ∧ v ≤ 100000000
  lateThreshold : w.lateThreshold ≤ 1000000

/-! ## Operands and premises of the statements -/

/-- A count and its fraction after an increment in units of 2^-32 ns, with the saturation of R1. -/
def Advanced (count frac inc count' frac' : Nat) : Prop :=
  let total := count * 4294967296 + frac + inc
  if total < 2 ^ 64 * 4294967296 then count' * 4294967296 + frac' = total ∧ frac' < 4294967296
  else count' = 2 ^ 64 - 1 ∧ frac' = 0

/-- The argument length of a request code whose request has one length (R203); none for SCHEDULE AT, SCHEDULE ON EDGE and a code
that names no request. -/
def requestLength (code : Byte) : Option Nat :=
  match code.toNat with
  | 0x01 => some 0
  | 0x02 => some 0
  | 0x03 => some 0
  | 0x04 => some 2
  | 0x05 => some 0
  | 0x10 => some 0
  | 0x11 => some 1
  | 0x12 => some 8
  | 0x18 => some 7
  | 0x19 => some 20
  | 0x1A => some 0
  | 0x22 => some 1
  | 0x23 => some 1
  | 0x24 => some 0
  | 0x25 => some 0
  | 0x26 => some 0
  | 0x27 => some 4
  | 0x30 => some 5
  | 0x31 => some 1
  | 0x32 => some 1
  | 0x33 => some 2
  | 0x34 => some 0
  | 0x38 => some 2
  | 0x40 => some 1
  | 0x41 => some 3
  | 0x48 => some 14
  | 0x49 => some 1
  | 0x4A => some 2
  | 0x4B => some 0
  | 0x50 => some 0
  | 0x51 => some 2
  | 0x52 => some 23
  | 0x53 => some 0
  | 0x60 => some 0
  | 0x61 => some 0
  | 0x62 => some 12
  | 0x63 => some 0
  | 0x64 => some 0
  | 0x65 => some 0
  | 0x66 => some 0
  | _ => none

/-- The requests that are NOT_PERMITTED to a port without the settings claim: TIME SET, REF CONFIGURE, DISCIPLINE PROFILE, HOLD,
RESUME, SCHEDULE CONFIGURE, PIN CONFIGURE, FAULT CLEAR, FAULT CONFIGURE, FAULT RECORD CLEAR, PORT LIMITS SET, STORE WRITE, STORE
FREEZE and HUB RESET (R12, R31, R33, R60, R61, R64, R75, R161, R163, R164, R172, R178, R180, R198). -/
def needsSettings (code : Byte) : Bool :=
  [0x12#8, 0x18#8, 0x19#8, 0x25#8, 0x26#8, 0x27#8, 0x30#8, 0x51#8, 0x52#8, 0x53#8, 0x62#8, 0x64#8, 0x65#8, 0x66#8].contains code

/-- The action fields of a SCHEDULE AT or SCHEDULE ON EDGE (R203). -/
def actionBytes : Action → List Byte
  | .set pin level => [b1 pin.val, bBool level]
  | .pulse pin level width => [b1 pin.val, bBool level] ++ beN 4 width
  | .notify => []

/-- The argument bytes of a SCHEDULE AT (R41, R203). -/
def atBytes (tag : Byte) (a : Action) (due : Nat) (q : Option Periodic) (report : Bool)
    (v : Option VecNo) : List Byte :=
  [tag, b1 a.code, b1 (bitAt 0 q.isSome + bitAt 1 v.isSome + bitAt 2 report)] ++ beN 8 due ++ actionBytes a ++
    (match q with | none => [] | some q => beN 8 q.period ++ beN 2 q.repeats) ++
    (match v with | none => [] | some v => [b1 v.val])

/-- The argument bytes of a SCHEDULE ON EDGE (R108, R203). -/
def onEdgeBytes (tag : Byte) (a : Action) (pin : Pin) (ed : Edge) (offset rearm : Nat) (report : Bool)
    (v : Option VecNo) : List Byte :=
  [tag, b1 a.code, b1 (bitAt 1 v.isSome + bitAt 2 report), b1 pin.val, b1 (edgeCode ed)] ++ beN 8 offset ++ beN 2 rearm ++
    actionBytes a ++ (match v with | none => [] | some v => [b1 v.val])

/-- The ranges of check 3 of R42. -/
def AtInRange (a : Action) (q : Option Periodic) : Prop :=
  (∀ pin level width, a = .pulse pin level width → 100 ≤ width ∧ width ≤ 4294967295) ∧
    ∀ p, q = some p → 1000 ≤ p.period ∧ p.period ≤ 2 ^ 40 ∧ p.repeats ≤ 65535 ∧
      ∀ pin level width, a = .pulse pin level width → width + 100 ≤ p.period

/-- Checks 4 to 8 of R42 and R109 pass, with the slot. -/
def Admissible (p : Port) (tag : Byte) (a : Action) (slot : Slot) (s : State) : Prop :=
  (∀ k, a.outPin = some k → (s.pins.get k).map.dir = .output ∧ (s.pins.get k).holder = some p) ∧
    (∀ e ∈ s.sched.live, ¬(e.owner = p ∧ e.tag = tag)) ∧
    (∀ e ∈ s.sched.live, e.slot ≠ slot) ∧ (∀ sl : Slot, sl < slot → ∃ e ∈ s.sched.live, e.slot = sl) ∧
    s.sched.holdings p < s.settings.quotas.get p

/-- Every live periodic entry has a period of 1 ns or more (R37 asks for 1,000). -/
def PeriodsPositive (s : State) : Prop :=
  ∀ e ∈ s.sched.live, ∀ q, e.kind = .timed (some q) → 0 < q.period

/-- An edge of pin `k` confirmed with this stamp, from the watch record's new value in `s` on: the CAPTURE records (`posted`), then the
arrival at the schedule, which takes the four owners' queues in port order (`armed`), and in RUN the late expiries that are due
(R99, R101, R111, R112). The ring of a port without the subscription takes nothing before the arrival, but for the FAULT records of
another ring's overflow where it selects FAULT (R125, R128). -/
def Confirmed (k : Pin) (ed : Edge) (stamp : Nat) (s t : State) : Prop :=
  ∃ posted armed : State, LogOnly s posted ∧
    (∀ q : Port, ((s.subs.get q).get k).includes ed = false →
      ((s.rings.get q).selFault = false ∨
        ∀ o : Port, ((s.subs.get o).get k).includes ed = true → (s.rings.get o).records.length < 32) →
      posted.rings.get q = s.rings.get q) ∧
    armed = armOldest k ed stamp 3 (armOldest k ed stamp 2 (armOldest k ed stamp 1 (armOldest k ed stamp 0 posted))) ∧
    t = (takeDue true armed).1 ∧ (s.sched.held = true → t = armed) ∧
    (s.sched.held = false → (∀ a ∈ armed.sched.armed, s.time.ht < a.due) → t = armed) ∧
    (s.sched.held = false → ArmedSorted s → PeriodsPositive s → ∀ a ∈ t.sched.armed, s.time.ht < a.due)

end Sys2Proof.Safety
end

