-- ==== Sys2Proof/Certificates/Slice0/Obligations.lean ====
section
/-! DEFINITION. The statements for the provers, one definition each. Each request is written with its argument bytes as R203 lays
them out; `answer p ⟨status, code, data⟩ s` is the state `s` with that outcome in the result buffer of `p`, the receiver idle and
ones shifted out on SDO_p, so a conclusion `exec c s = .next (answer p … s)` says that nothing else changed. Every command has a
statement that says where it completes, with its own effect. -/

open Sys2Proof Sys2Proof.Machine Sys2Proof.Safety

/-! ## Steps, resets, loads -/

/-- One step carries out the command at the front of the queue on the state with the queue's rest; with no command it idles (the
idling is the model's choice, notes/assumptions/3.md). -/
def Obligations.StepRunsTheFrontCommand : Prop :=
  (∀ (c : Instr) (rest : List Instr) (s : State),
      step { s with pending := c :: rest } = exec c { s with pending := rest }) ∧
    ∀ s : State, s.pending = [] → step s = .next s

/-- Every command answers a next state and leaves the queue alone. That a command whose event cannot occur, or that comes without
supply, answers a next state too is the model's choice (notes/assumptions/2.md, 12.md). -/
def Obligations.EveryCommandAnswersAndKeepsTheQueue : Prop :=
  ∀ (c : Instr) (s : State), ∃ t, exec c s = .next t ∧ t.pending = s.pending

/-- POWER_ON gives every block its power-on values and awaits the settings load; `State.reset` has them too. The image is kept,
but for a write that the cut of supply abandons (R181). POWER_LOSS keeps the image in the same way. A POWER_ON in a powered state
is a supply cycle (the model's choice, notes/assumptions/12.md), and `State.reset` is the machine right after power-on (the model's
choice, notes/assumptions/7.md). -/
def Obligations.SupplyEventsGivePowerOnValues : Prop :=
  (∀ s : State, ∃ t, exec .powerOn s = .next t ∧ AtPowerOn t ∧ t.powered = true ∧
      (s.settings.store.isWriting = false → t.settings.image = s.settings.image) ∧
      (s.settings.store.isWriting = true → t.settings.image.settings = none)) ∧
    (∀ s : State, s.powered = true → ∃ t, exec .powerLoss s = .next t ∧ t.powered = false ∧
      (∀ p : Port, t.takesFrames p = false) ∧
      (s.settings.store.isWriting = false → t.settings.image = s.settings.image) ∧
      (s.settings.store.isWriting = true → t.settings.image.settings = none)) ∧
    AtPowerOn State.reset

/-- The reset state meets every invariant that the statements below say each step keeps. That this state is the machine right after
power-on is the model's choice (notes/assumptions/7.md), and its quotas, default lease periods and Tref are the values that the
model chose for the span before the load (notes/assumptions/8.md). -/
def Obligations.ResetMeetsTheInvariants : Prop :=
  FaultLineTied State.reset ∧ VectorsTied State.reset ∧ RingsBounded State.reset ∧ ArmedSorted State.reset ∧
    PinsTied State.reset ∧ SlotsTied State.reset ∧ WatchTied State.reset ∧ LeasesTied State.reset ∧
    DisciplineTied State.reset ∧ DuesAhead State.reset ∧ PeriodsPositive State.reset ∧ ReceiversTied State.reset

/-- The settings load: a valid image gives the working settings, an invalid one the built-in defaults. The occurrence of
STORE_INVALID that an invalid image brings is then taken in the state `u` with the loaded values in place, so under the loaded
masks, severities and safe-on-major after power-on, and under those held before after a hub reset: after power-on it pulls FAULTn
low, becomes the capture record and hands one hold notice (R167, R176, R177). A drive at the load that gives a pin its first level or
another level starts its contention check (R90). That the command carries the levels sensed (notes/assumptions/19.md), and which
frames have begun and are then missed (notes/assumptions/1.md), is the model's choice. -/
def Obligations.SettingsLoadPutsTheSettingsInPlace : Prop :=
  ∀ (s : State) (kind : LoadKind) (levels : BitVec 24) (begun : BitVec 4),
    s.load = some kind → s.powered = true → s.resetnLow = false →
      (∀ w, s.settings.image.settings = some w → ∃ t, exec (.settingsLoad ⟨levels, begun⟩) s = .next t ∧
        AtLoad kind w levels begun s t ∧ t.settings.store = .valid ∧ t.rings = s.rings ∧ t.vectors = s.vectors ∧
        (∀ k, (t.faults.cells.get k).count = (s.faults.cells.get k).count)) ∧
      (s.settings.image.settings = none → ∃ w u t, IsBuiltin w ∧ AtLoad kind w levels begun s u ∧
        u.settings.store = .invalid ∧ u.rings = s.rings ∧ u.vectors = s.vectors ∧ u.sched.holdNotices = s.sched.holdNotices ∧
        u.faults.capture = s.faults.capture ∧ (∀ k, (u.faults.cells.get k).count = (s.faults.cells.get k).count) ∧
        exec (.settingsLoad ⟨levels, begun⟩) s = .next t ∧ t = occur .storeInvalid none .none u ∧ LogOnly u t ∧
        AtLoad kind w levels begun s t ∧ t.settings.store = .invalid ∧
        countOf t .storeInvalid = bumped (countOf s .storeInvalid) ∧
        (kind = .powerOn → t.faults.faultnLow = true ∧ t.sched.holdNotices = s.sched.holdNotices + 1 ∧
          (s.faults.capture = none →
            t.faults.capture = some ⟨.storeInvalid, s.time.ht, s.time.epoch, none, .none⟩)))

/-- The image that a write makes of settings in their ranges is valid and gives those settings back at a load (R175). It speaks of
every profile whose five values are in range; that one whose thresholds are out of the order of R33 reads back too rests on the
model's reading of R175 (notes/assumptions/22.md). -/
def Obligations.ImageOfSettingsReadsBack : Prop :=
  ∀ w : Settings, InRange w → (imageOf w).length = 128 ∧ readImage (imageOf w) = some w

/-! ## Frames and results -/

/-- The frame of every well-formed request is read back as that request (R184, R186, R202, R203). -/
def Obligations.FrameOfRequestReadsBack : Prop :=
  ∀ (c : Instr) (p : Port) (bytes : List Byte), c.wf = true → c.frame? = some (p, bytes) →
    commandOfFrame p bytes 0 c.pinLevel = c

/-- A good frame whose code names no request answers UNKNOWN_REQUEST and changes nothing else (R186). A frame that is not good sets
the buffer to BAD_FRAME and is an occurrence of FRAME_ERROR with the first four bytes, 0xFF where none was received (R185). -/
def Obligations.FramesWithoutARequest : Prop :=
  ∀ (p : Port) (s : State), s.takesFrames p = true →
    (∀ (code : Byte) (args : List Byte), (Instr.unknownRequest p code args).wf = true →
      exec (.unknownRequest p code args) s = .next (answer p ⟨.unknownRequest, code, []⟩ s)) ∧
    (∀ (bytes : List Byte) (trailing : Nat), (Instr.badFrame p bytes trailing).wf = true →
      ∃ t, exec (.badFrame p bytes trailing) s = .next t ∧
        t = occur .frameError (some p)
          (.frame (bytes.getD 0 0xFF#8) (bytes.getD 1 0xFF#8) (bytes.getD 2 0xFF#8) (bytes.getD 3 0xFF#8))
          (answer p ⟨.badFrame, bytes.getD 0 0xFF#8, []⟩ s) ∧
        countOf t .frameError = bumped (countOf s .frameError) ∧
        LogOnly (answer p ⟨.badFrame, bytes.getD 0 0xFF#8, []⟩ s) t)

/-- RESULT READ shifts out, after the ones of its first byte, the status, the echoed code, the six port flags, the length, the data
and the CRC-8 of all these, and after them ones; it leaves the buffer as it is, and at its end the receiver is idle (R183, R187,
R188, R202). -/
def Obligations.ResultReadShiftsOutTheBuffer : Prop :=
  ∀ (p : Port) (s : State), s.takesFrames p = true →
    ∃ (flags : Byte) (body : List Byte) (t : State), exec (.resultRead p) s = .next t ∧
      t = { s with ports := s.ports.set p { s.ports.get p with sdo := 0xFF#8 :: body ++ [crc8 body] } } ∧
      (t.ports.get p).receiver = .idle ∧ (t.ports.get p).sdoByte 0 = 0xFF#8 ∧
      (∀ k, k < body.length → (t.ports.get p).sdoByte (k + 1) = body.getD k 0) ∧
      (t.ports.get p).sdoByte (body.length + 1) = crc8 body ∧
      (∀ k, body.length + 2 ≤ k → (t.ports.get p).sdoByte k = 0xFF#8) ∧
      body = [b1 (s.ports.get p).result.status.code, (s.ports.get p).result.code, flags,
        b1 (s.ports.get p).result.data.length] ++ (s.ports.get p).result.data ∧
      flags.getLsbD 0 = (s.vectors.get p).notifynLow ∧
      (flags.getLsbD 1 = true ↔ 1 ≤ (s.rings.get p).records.length) ∧
      (flags.getLsbD 2 = true ↔ s.settings.holder = some p) ∧
      flags.getLsbD 3 = s.faults.faultnLow ∧
      (flags.getLsbD 4 = true ↔ (s.ports.get p).lease = .expired) ∧
      flags.getLsbD 5 = s.sched.held ∧ flags.getLsbD 6 = false ∧ flags.getLsbD 7 = false

/-- A well-formed request on a port that takes frames leaves the receiver idle, shifts out only ones and echoes its code; where it is
refused nothing but the buffer changes and the data are empty, but for HELD_BY (one byte) and BACKWARD (eight); PORT RESET and HUB
RESET alone leave the buffer at NONE. An argument length that is not the request's is BAD_ARGUMENT before every other check, and a
request that needs the settings claim is then NOT_PERMITTED to a port without it (00_scope.md, Requests and results; R183, R186,
R202, R203). -/
def Obligations.RefusedRequestChangesOnlyTheBuffer : Prop :=
  ∀ (c : Instr) (p : Port) (code : Byte) (args : List Byte) (s : State),
    c.wf = true → c.request? = some (p, code, args) → s.takesFrames p = true →
      ∃ t, exec c s = .next t ∧ (t.ports.get p).receiver = .idle ∧ (∀ k, (t.ports.get p).sdoByte k = 0xFF#8) ∧
        ((t.ports.get p).result.status = .none → code = 0x03#8 ∨ code = 0x66#8) ∧
        ((t.ports.get p).result.status ≠ .none → (t.ports.get p).result.code = code) ∧
        ((t.ports.get p).result.status ≠ .none → (t.ports.get p).result.status ≠ .ok →
          t = answer p (t.ports.get p).result s ∧
          match (t.ports.get p).result.status with
          | .heldBy => (t.ports.get p).result.data.length = 1
          | .backward => (t.ports.get p).result.data = beN 8 s.time.ht
          | _ => (t.ports.get p).result.data = []) ∧
        ∀ n, requestLength code = some n →
          (args.length ≠ n → t = answer p ⟨.badArgument, code, []⟩ s) ∧
          (args.length = n → needsSettings code = true → s.settings.holder ≠ some p →
            t = answer p ⟨.notPermitted, code, []⟩ s)

/-- A port whose PRSTn or RESETn is low, or that awaits the settings load, or has no supply, or whose frame began before it could
begin one, receives no frame: the frame only ends, with the receiver idle, and where the receiver was idle and no frame in progress
was being missed the state is as it was (R183, R195, R199; that a frame command stands for a frame that is not received is the
model's choice, notes/assumptions/1.md, 2.md). -/
def Obligations.PortInResetReceivesNoFrame : Prop :=
  ∀ (p : Port) (s : State),
    (s.powered = false ∨ s.resetnLow = true ∨ s.load ≠ none ∨ (s.ports.get p).prstnLow = true ∨
        (s.ports.get p).missed = true) →
      ∃ t, t = { s with ports := s.ports.set p { s.ports.get p with receiver := .idle, missed := false } } ∧
        ((s.ports.get p).receiver = .idle → (s.ports.get p).missed = false → t = s) ∧
        (∀ (c : Instr) (code : Byte) (args : List Byte), c.request? = some (p, code, args) → exec c s = .next t) ∧
        exec (.resultRead p) s = .next t ∧
        ∀ (bytes : List Byte) (trailing : Nat), exec (.badFrame p bytes trailing) s = .next t

/-! ## Hub time -/

/-- ADVANCE adds 40 × (10^9 + F + S) / 10^9 ns, in units of 2^-32 ns and rounded toward zero, to HT and to RT, between 30 and 50 ns
for trims in their ranges and exactly 40 ns with F + S = 0 (R2, R3). That nothing else changes, even where the advance reaches a due,
a miss or a window end, is the model's choice: those events are commands of their own (notes/assumptions/4.md). -/
def Obligations.AdvanceAddsTheTrimmedIncrement : Prop :=
  ∀ s : State, s.powered = true → -200000 ≤ s.disc.f → s.disc.f ≤ 200000 → -50000 ≤ s.disc.s → s.disc.s ≤ 50000 →
    ∃ (inc : Nat) (time : TimeCounter), exec .advance s = .next { s with time := time } ∧
      (inc : Int) * 1000000000 ≤ 40 * (1000000000 + s.disc.f + s.disc.s) * 4294967296 ∧
      40 * (1000000000 + s.disc.f + s.disc.s) * 4294967296 < ((inc : Int) + 1) * 1000000000 ∧
      30 * 4294967296 ≤ inc ∧ inc ≤ 50 * 4294967296 ∧ (s.disc.f + s.disc.s = 0 → inc = 40 * 4294967296) ∧
      Advanced s.time.ht s.time.htFrac inc time.ht time.htFrac ∧
      Advanced s.time.rt s.time.rtFrac inc time.rt time.rtFrac ∧ time.epoch = s.time.epoch

/-- While supply stays, hub time and run time never decrease, and run time changes at advances only (R1, R3). -/
def Obligations.TimeRunsForward : Prop :=
  ∀ (c : Instr) (s t : State), exec c s = .next t → c ≠ .powerOn → c ≠ .powerLoss →
    s.time.ht ≤ 2 ^ 64 - 1 → s.time.rt ≤ 2 ^ 64 - 1 →
      s.time.ht ≤ t.time.ht ∧ t.time.ht ≤ 2 ^ 64 - 1 ∧ s.time.rt ≤ t.time.rt ∧ t.time.rt ≤ 2 ^ 64 - 1 ∧
      (c ≠ .advance → t.time.rt = s.time.rt ∧ t.time.rtFrac = s.time.rtFrac)

/-- The checks of TIME SET, in order, with their refusals (R12). -/
def Obligations.TimeSetChecksInOrder : Prop :=
  ∀ (p : Port) (args : List Byte) (s : State), s.takesFrames p = true →
    (args.length ≠ 8 → exec (.timeSet p args) s = .next (answer p ⟨.badArgument, 0x12#8, []⟩ s)) ∧
    (args.length = 8 → s.settings.holder ≠ some p →
      exec (.timeSet p args) s = .next (answer p ⟨.notPermitted, 0x12#8, []⟩ s)) ∧
    (args.length = 8 → s.settings.holder = some p → 2 ^ 62 ≤ be args →
      exec (.timeSet p args) s = .next (answer p ⟨.badTime, 0x12#8, []⟩ s)) ∧
    (args.length = 8 → s.settings.holder = some p → be args < 2 ^ 62 →
      s.disc.state ≠ .freerun → s.disc.state ≠ .search →
      exec (.timeSet p args) s = .next (answer p ⟨.wrongState, 0x12#8, []⟩ s)) ∧
    (args.length = 8 → s.settings.holder = some p → be args < 2 ^ 62 →
      (s.disc.state = .freerun ∨ s.disc.state = .search) → be args < s.time.ht →
      exec (.timeSet p args) s = .next (answer p ⟨.backward, 0x12#8, beN 8 s.time.ht⟩ s)) ∧
    (args.length = 8 → s.settings.holder = some p → be args < 2 ^ 62 →
      (s.disc.state = .freerun ∨ s.disc.state = .search) → s.time.ht ≤ be args →
      ∃ t, exec (.timeSet p args) s = .next t ∧ (t.ports.get p).result.status = .ok)

/-- A passing TIME SET: an equal value changes nothing; a greater one steps HT to it, changes the epoch by one, records TIME_STEP and
marks every running debounce window; in RUN the entries whose due it passed over expire late at the step, before or after the
TIME_STEP occurrence, and none stays behind, and in HELD they stay. RT, the fraction and the discipline unit stay (R8, R9, R13, R66,
R98). -/
def Obligations.TimeSetStepsHubTime : Prop :=
  ∀ (p : Port) (v : Nat) (s : State), s.takesFrames p = true → s.settings.holder = some p → v < 2 ^ 62 →
    (s.disc.state = .freerun ∨ s.disc.state = .search) →
      (v = s.time.ht → exec (.timeSet p (beN 8 v)) s =
        .next (answer p ⟨.ok, 0x12#8, beN 8 v ++ beN 8 v ++ beN 2 s.time.epoch.toNat⟩ s)) ∧
      (s.time.ht < v → ∃ t u, exec (.timeSet p (beN 8 v)) s = .next t ∧
        t = answer p ⟨.ok, 0x12#8, beN 8 s.time.ht ++ beN 8 v ++ beN 2 (s.time.epoch + 1).toNat⟩ u ∧
        EdgeOnly s u ∧ u.disc = s.disc ∧
        u.time = { s.time with ht := v, epoch := s.time.epoch + 1 } ∧
        countOf u .timeStep = bumped (countOf s .timeStep) ∧
        (∀ k, u.watch.get k = (s.watch.get k).map fun w =>
          { w with window := w.window.map fun d => { d with stepMark := true } }) ∧
        (s.sched.held = true → u.sched.armed = s.sched.armed ∧ u.sched.waiting = s.sched.waiting ∧ u.pins = s.pins) ∧
        (s.sched.held = false → ArmedSorted s → PeriodsPositive s → ∀ a ∈ u.sched.armed, v < a.due) ∧
        ∃ (m : State) (draws : Nat), m.time = { s.time with ht := v, epoch := s.time.epoch + 1 } ∧
          m = { s with time := m.time, watch := u.watch, choices := draws } ∧
          (u = occur .timeStep none (.stepAmount (v - s.time.ht)) (takeDue true m).1 ∨
            u = (takeDue true (occur .timeStep none (.stepAmount (v - s.time.ht)) m)).1))

/-! ## Reference discipline -/

/-- R19: the phase error is the stamp's distance from the nearest multiple of Tref, in its range, with the manual's two values. -/
def Obligations.PhaseErrorIsTheDistanceToAMultiple : Prop :=
  (∀ c half : Nat, 0 < half →
      (phaseError c (2 * half) = (c % (2 * half) : Nat) ∧ c % (2 * half) ≤ half ∨
        phaseError c (2 * half) = (c % (2 * half) : Nat) - (2 * half : Nat) ∧ half < c % (2 * half)) ∧
      -(half : Int) + 1 ≤ phaseError c (2 * half) ∧ phaseError c (2 * half) ≤ half) ∧
    phaseError 7260000200350 1000000 = 200350 ∧ phaseError 7260000999700 1000000 = -300

/-- ACTIVE_EDGE outside FREERUN: an edge that is the first after enable or at least Tref/2 after the reference point is accepted
(R17, R20); an earlier one is a runt, recorded and otherwise ignored (R18); in FREERUN, and for the opposite change, nothing
happens (R16). -/
def Obligations.ActiveEdgeIsAcceptedOrARunt : Prop :=
  ∀ (change : Edge) (s : State), s.powered = true →
    (s.disc.state ≠ .freerun → s.disc.cfg.edge = change →
      (s.disc.firstEdge = true ∨ s.disc.cfg.trefNs / 2 ≤ s.time.rt - s.disc.refPoint) →
      ∃ t, exec (.activeEdge change) s = .next t ∧ EdgeOnly s t ∧ t.disc.refPoint = s.time.rt ∧
        t.disc.firstEdge = false ∧ t.disc.missCount = 0 ∧ t.disc.lastE = phaseError s.time.ht s.disc.cfg.trefNs ∧
        t.disc.nextMiss = s.time.rt + 3 * s.disc.cfg.trefNs / 2 ∧ t.disc.cfg = s.disc.cfg ∧
        t.disc.profile = s.disc.profile) ∧
    (s.disc.state ≠ .freerun → s.disc.cfg.edge = change → s.disc.firstEdge = false →
      s.time.rt - s.disc.refPoint < s.disc.cfg.trefNs / 2 →
      ∃ t, exec (.activeEdge change) s = .next t ∧
        t = occur .refRunt none (.interval (s.time.rt - s.disc.refPoint)) s ∧ LogOnly s t ∧
        countOf t .refRunt = bumped (countOf s .refRunt)) ∧
    (s.disc.state = .freerun ∨ s.disc.cfg.edge ≠ change → exec (.activeEdge change) s = .next s)

/-- The state after an accepted edge, by the table of transitions; an UNLOCK sets every unlock-seen flag, empties the window and
keeps the trims (R22, R23, R25 to R27). A change of state is reported to the ports whose rings select DISCIPLINE, with the new last
e, and nothing else is (R29); at an UNLOCK the FAULT records of the event may stand before that record. -/
def Obligations.AcceptedEdgeFollowsTheTransitionTable : Prop :=
  ∀ s : State, s.powered = true → s.disc.state ≠ .freerun →
    (s.disc.firstEdge = true ∨ s.disc.cfg.trefNs / 2 ≤ s.time.rt - s.disc.refPoint) →
    ∃ t, exec (.activeEdge s.disc.cfg.edge) s = .next t ∧
      t.disc.state = nextDiscState s.disc (phaseError s.time.ht s.disc.cfg.trefNs) ∧
      (s.disc.state = .search ∨ s.disc.state = .holdover →
        t.disc.pairCount = (if s.disc.pairCount = 0 then 1 else 0) ∧ t.disc.f = s.disc.f ∧ t.disc.s = s.disc.s) ∧
      (s.disc.state = .locked → s.disc.profile.lockOut < (phaseError s.time.ht s.disc.cfg.trefNs).natAbs →
        (∀ p, t.disc.unlockSeen.get p = true) ∧ t.disc.window = [] ∧ t.disc.f = s.disc.f ∧ t.disc.s = s.disc.s ∧
        countOf t .unlock = bumped (countOf s .unlock)) ∧
      (s.disc.state ≠ .locked → t.disc.unlockSeen = s.disc.unlockSeen) ∧
      (t.disc.state ≠ s.disc.state → ChangeReported (if s.disc.state = .locked then 3 else 1) s.disc.state t.disc.state
        (phaseError s.time.ht s.disc.cfg.trefNs) s t) ∧
      ∀ p, t.disc.state = s.disc.state ∨ (s.rings.get p).selDiscipline = false → NoChangeReported s t p

/-- The trims at a window end: in ACQUIRE the fourth phase error, in TRACK and LOCKED the sixteenth; and the forward step of ACQUIRE
(R24 to R27). -/
def Obligations.WindowEndSetsTheTrims : Prop :=
  ∀ (s : State) (e1 : Int) (rest : List Int), s.powered = true → s.disc.window = e1 :: rest →
    (s.disc.firstEdge = true ∨ s.disc.cfg.trefNs / 2 ≤ s.time.rt - s.disc.refPoint) →
    ∃ t, exec (.activeEdge s.disc.cfg.edge) s = .next t ∧
      ∀ e : Int, e = phaseError s.time.ht s.disc.cfg.trefNs →
        (s.disc.state = .acquire → rest.length = 2 →
          t.disc.window = [] ∧
          t.disc.f = max (-200000) (min 200000
            (s.disc.f - (Int.tdiv ((e - e1) * 1000000000) (3 * s.disc.cfg.trefNs) - s.disc.s))) ∧
          (if e < -(s.disc.profile.stepTh : Int) ∧ s.disc.cfg.stepEnable = true then
            t.disc.s = 0 ∧ t.time.epoch = s.time.epoch + 1 ∧ t.time.ht = min (s.time.ht + (-e).toNat) (2 ^ 64 - 1) ∧
              countOf t .timeStep = bumped (countOf s .timeStep)
          else
            t.disc.s = max (-50000) (min 50000 (Int.tdiv (-e * 1000000000) (8 * s.disc.cfg.trefNs))) ∧
              t.time = s.time)) ∧
        ((s.disc.state = .track ∧ e.natAbs ≤ s.disc.profile.acqIn ∨
            s.disc.state = .locked ∧ e.natAbs ≤ s.disc.profile.lockOut) → rest.length = 14 →
          t.disc.window = [] ∧ t.time = s.time ∧
          t.disc.f = max (-200000) (min 200000
            (s.disc.f - (Int.tdiv ((e - e1) * 1000000000) (15 * s.disc.cfg.trefNs) - s.disc.s))) ∧
          t.disc.s = max (-50000) (min 50000 (Int.tdiv (-e * 1000000000) (64 * s.disc.cfg.trefNs))))

/-- MISS: the counts of R20, and at the third miss the loss of R21: REF_LOST is recorded in the state at the miss, whose LOCKED its
FAULT record carries (R124), and then the state changes with S = 0; the change is reported to the ports whose rings select
DISCIPLINE (R29). That the FAULT record of REF_LOST stands before the DISCIPLINE record in a ring that selects both, although R29
makes the two records independent, is the model's reading of R21 (notes/assumptions/20.md). -/
def Obligations.MissCountsAndTakesLoss : Prop :=
  ∀ s : State, s.powered = true → s.disc.state ≠ .freerun → s.disc.nextMiss ≤ s.time.rt →
    ∃ t, exec .miss s = .next t ∧ EdgeOnly s t ∧ t.time = s.time ∧ t.watch = s.watch ∧ t.pins = s.pins ∧
      t.disc.missCount = bumped s.disc.missCount ∧ t.disc.window = [] ∧ t.disc.pairCount = 0 ∧ t.disc.f = s.disc.f ∧
      t.disc.nextMiss = s.disc.nextMiss + s.disc.cfg.trefNs ∧ t.disc.lastE = s.disc.lastE ∧
      (s.disc.missCount = 2 → t.disc.state = stateAtLoss s.disc.state ∧ t.disc.s = 0 ∧
        countOf t .refLost = bumped (countOf s .refLost) ∧
        (s.faults.capture = none → (s.faults.cells.get 0).masked = false →
          t.faults.capture = some ⟨.refLost, s.time.ht, s.time.epoch, none, .missCount 3⟩) ∧
        (∀ p, (s.faults.cells.get 0).masked = false → (s.faults.cells.get 0).count = 0 → (s.rings.get p).selFault = true →
          (s.rings.get p).records.length < 32 →
          Appended s t p ⟨.fault .refLost (s.faults.cells.get 0).severity, 0, false, decide (s.disc.state = .locked),
            s.time.ht, s.time.epoch⟩) ∧
        (t.disc.state ≠ s.disc.state → ChangeReported 3 s.disc.state t.disc.state s.disc.lastE s t)) ∧
      (∀ p, t.disc.state = s.disc.state ∨ (s.rings.get p).selDiscipline = false → NoChangeReported s t p) ∧
      (s.disc.missCount ≠ 2 → t.disc.state = s.disc.state ∧ t.disc.s = s.disc.s ∧ LogOnly s { t with disc := s.disc } ∧
        t.faults = s.faults ∧ t.rings = s.rings ∧ t.vectors = s.vectors)

/-- A passing REF CONFIGURE: the four fields, the emptied window and counts, S = 0, and FREERUN or SEARCH (R17, R31). Last e is kept,
but an edge taken first at the same RT has its effect on last e undone (R32; that this is the exception to R31's sentence is the
model's reading, notes/assumptions/28.md). A change of state is reported to the ports whose rings select DISCIPLINE (R29). -/
def Obligations.RefConfigureRestartsTheSearch : Prop :=
  ∀ (p : Port) (c : RefConfig) (s : State), s.takesFrames p = true → s.settings.holder = some p →
    1000 ≤ c.trefUs → c.trefUs ≤ 1000000 →
    ∃ (t u : State) (d : Discipline),
      exec (.refConfigure p ([bBool c.enabled] ++ beN 4 c.trefUs ++ [b1 (edgeCode c.edge), bBool c.stepEnable])) s =
        .next t ∧
      t = answer p ⟨.ok, 0x18#8, [if c.enabled then 1#8 else 0#8]⟩ u ∧ LogOnly { s with disc := d } u ∧
      d.cfg = c ∧ d.profile = s.disc.profile ∧ d.window = [] ∧ d.pairCount = 0 ∧ d.missCount = 0 ∧ d.s = 0 ∧
      d.f = s.disc.f ∧
      d.lastE = (if s.disc.firstEdge = false ∧ s.disc.refPoint = s.time.rt then s.disc.lastEBefore else s.disc.lastE) ∧
      d.unlockSeen = s.disc.unlockSeen ∧
      d.state = (if c.enabled then .search else .freerun) ∧
      (c.enabled = true → d.refPoint = s.time.rt ∧ d.firstEdge = true) ∧
      (d.state = s.disc.state → u.rings = s.rings ∧ u.vectors = s.vectors ∧ u.faults = s.faults) ∧
      (d.state ≠ s.disc.state → ChangeReported 1 s.disc.state d.state d.lastE s u) ∧
      ∀ o, (s.rings.get o).selDiscipline = false → NoChangeReported s u o

/-- DISCIPLINE STATUS: its fields, and the requesting port's unlock-seen flag cleared, no other (R30, R34). -/
def Obligations.DisciplineStatusClearsOneFlag : Prop :=
  ∀ (p : Port) (s : State), s.takesFrames p = true →
    (∃ fill : Nat, exec (.disciplineStatus p []) s = .next (answer p ⟨.ok, 0x1A#8,
        [b1 s.disc.state.code] ++ beInt 4 s.disc.f ++ beInt 4 s.disc.s ++ beInt 4 s.disc.lastE ++
          [b1 s.disc.missCount, b1 fill, if s.disc.unlockSeen.get p then 1#8 else 0#8]⟩
        { s with disc := { s.disc with unlockSeen := s.disc.unlockSeen.set p false } }) ∧
      (s.disc.state = .acquire ∨ s.disc.state = .track ∨ s.disc.state = .locked → fill = s.disc.window.length) ∧
      (s.disc.state = .search ∨ s.disc.state = .holdover → fill = s.disc.pairCount) ∧
      (s.disc.state = .freerun → fill = 0)) ∧
    ∀ args, args ≠ [] → exec (.disciplineStatus p args) s = .next (answer p ⟨.badArgument, 0x1A#8, []⟩ s)

/-- Every step keeps the discipline unit's values in their ranges, and S at 0 in FREERUN, SEARCH and HOLDOVER. -/
def Obligations.EveryStepKeepsTheDisciplineRanges : Prop :=
  ∀ s t : State, DisciplineTied s → step s = .next t → DisciplineTied t

/-! ## The action schedule -/

/-- R44: an insertion goes behind every entry whose due is less than or equal to its own and before the first whose due is greater,
and every step keeps the armed list in ascending due order. R45: in RUN each ARMED entry has a due greater than the HT count; every
step keeps this but an ADVANCE, which brings HT to a due before the EXPIRY that takes it (that these are two commands is the model's
choice, notes/assumptions/4.md). Every step keeps the periods of live entries above 0. -/
def Obligations.ArmedListStaysInDueOrder : Prop :=
  (∀ (a : Armed) (l : List Armed), l.Pairwise (fun x y => x.due ≤ y.due) →
      insertArmed a l = l.filter (fun b => decide (b.due ≤ a.due)) ++ a :: l.filter (fun b => decide (a.due < b.due))) ∧
    (∀ s t : State, ArmedSorted s → step s = .next t → ArmedSorted t) ∧
    (∀ s t : State, PeriodsPositive s → step s = .next t → PeriodsPositive t) ∧
    ∀ (s t : State) (c : Instr) (rest : List Instr), s.pending = c :: rest → c ≠ .advance →
      ArmedSorted s → PeriodsPositive s → DuesAhead s → step s = .next t → DuesAhead t

/-- SCHEDULE AT admits its entry in the lowest free slot, ARMED in LEAD with the given due, on the armed list; where the schedule is
HELD or the due lies ahead it waits there and nothing else changes. In RUN an entry due at or before HT fires late at the admission,
with lateness HT minus the due (R43, R46 to R54): a SET or a NOTIFY, one-shot or periodic, fires whole, with its drive,
continuation, FIRED record, raise and LATE_FIRE; a PULSE takes its LEAD late, and its TRAIL at the same event when the TRAIL due has
gone by too. The premise that the other dues lie ahead is R45's (R38, R41 to R43). -/
def Obligations.ScheduleAtAdmitsAnEntry : Prop :=
  ∀ (p : Port) (tag : Byte) (a : Action) (due : Nat) (q : Option Periodic) (report : Bool) (v : Option VecNo)
    (slot : Slot) (s : State),
    s.takesFrames p = true → due < 2 ^ 62 → AtInRange a q → Admissible p tag a slot s →
    ∃ (e : Entry) (u : State), e = ⟨slot, p, tag, a, .timed q, report || decide (a = .notify), v⟩ ∧
      exec (.scheduleAt p (atBytes tag a due q report v)) s = .next (answer p ⟨.ok, 0x20#8, [b1 slot.val]⟩ u) ∧
      FireOnly s u ∧
      (s.sched.held = true ∨ s.time.ht < due →
        u = { s with sched := { s.sched with armed := insertArmed ⟨e, due, .lead⟩ s.sched.armed } }) ∧
      (∀ k level, a = .set k level → q = none → due ≤ s.time.ht → s.sched.held = false →
        (∀ b ∈ s.sched.armed, s.time.ht < b.due) →
        u.sched.armed = s.sched.armed ∧ u.sched.waiting = s.sched.waiting ∧ (u.pins.get k).driven = some level ∧
        ∀ j, j ≠ k → u.pins.get j = s.pins.get j) ∧
      (due ≤ s.time.ht → s.sched.held = false → (∀ b ∈ s.sched.armed, s.time.ht < b.due) →
        ((∀ k level width, a ≠ .pulse k level width) → Fires ⟨e, due, .lead⟩ (s.time.ht - due) s u) ∧
        ∀ k level width, a = .pulse k level width → ∃ m, Leads ⟨e, due, .lead⟩ k level width (s.time.ht - due) s m ∧
          (s.time.ht < due + width → u = m) ∧
          (due + width ≤ s.time.ht → Fires ⟨e, due + width, .trail (s.time.ht - due)⟩ (s.time.ht - (due + width))
            { m with sched := { m.sched with armed := s.sched.armed } } u))

/-- The checks of SCHEDULE AT in order: the action and the argument length that it and the flags call for, the due, the ranges of out
pin, level, width, period, repeats and vector, the out pin's direction, its claim, the tag, the slots, the quota (R42); a spare bit of
the flags byte must be 0 (R201). -/
def Obligations.ScheduleAtChecksInOrder : Prop :=
  (∀ (p : Port) (args : List Byte) (s : State), s.takesFrames p = true →
    ((∀ n, actionLength (fld args 1 1) = some n → args.length ≠ 11 + n + (if fld args 2 1 % 2 = 1 then 10 else 0) +
        (if fld args 2 1 / 2 % 2 = 1 then 1 else 0)) →
      exec (.scheduleAt p args) s = .next (answer p ⟨.badArgument, 0x20#8, []⟩ s)) ∧
    ∀ n, actionLength (fld args 1 1) = some n →
      args.length = 11 + n + (if fld args 2 1 % 2 = 1 then 10 else 0) + (if fld args 2 1 / 2 % 2 = 1 then 1 else 0) →
      (2 ^ 62 ≤ fld args 3 8 → exec (.scheduleAt p args) s = .next (answer p ⟨.badTime, 0x20#8, []⟩ s)) ∧
      (fld args 3 8 < 2 ^ 62 →
        (8 ≤ fld args 2 1 ∨ fld args 1 1 ≠ 2 ∧ (24 ≤ fld args 11 1 ∨ 2 ≤ fld args 12 1) ∨
          fld args 1 1 = 1 ∧ fld args 13 4 < 100 ∨
          fld args 2 1 % 2 = 1 ∧ (fld args (11 + n) 8 < 1000 ∨ 2 ^ 40 < fld args (11 + n) 8 ∨
            fld args 1 1 = 1 ∧ fld args (11 + n) 8 < fld args 13 4 + 100) ∨
          fld args 2 1 / 2 % 2 = 1 ∧ 8 ≤ fld args (11 + n + (if fld args 2 1 % 2 = 1 then 10 else 0)) 1) →
        exec (.scheduleAt p args) s = .next (answer p ⟨.badArgument, 0x20#8, []⟩ s))) ∧
  ∀ (p : Port) (tag : Byte) (a : Action) (due : Nat) (q : Option Periodic) (report : Bool) (v : Option VecNo) (s : State),
    s.takesFrames p = true → due < 2 ^ 64 →
    (due < 2 ^ 62 → ¬AtInRange a q → (∀ pin level width, a = .pulse pin level width → width < 2 ^ 32) →
      (∀ x, q = some x → x.period < 2 ^ 64 ∧ x.repeats < 2 ^ 16) →
      exec (.scheduleAt p (atBytes tag a due q report v)) s = .next (answer p ⟨.badArgument, 0x20#8, []⟩ s)) ∧
    ∀ st : Status,
      (st = .badTime ∧ 2 ^ 62 ≤ due ∨
        due < 2 ^ 62 ∧ AtInRange a q ∧
          (st = .wrongDirection ∧ (∃ k, a.outPin = some k ∧ (s.pins.get k).map.dir ≠ .output) ∨
            (∀ k, a.outPin = some k → (s.pins.get k).map.dir = .output) ∧
              (st = .notOwner ∧ (∃ k, a.outPin = some k ∧ (s.pins.get k).holder ≠ some p) ∨
                (∀ k, a.outPin = some k → (s.pins.get k).holder = some p) ∧
                  (st = .tagInUse ∧ (∃ e ∈ s.sched.live, e.owner = p ∧ e.tag = tag) ∨
                    (∀ e ∈ s.sched.live, ¬(e.owner = p ∧ e.tag = tag)) ∧
                      (st = .full ∧ (∀ sl : Slot, ∃ e ∈ s.sched.live, e.slot = sl) ∨
                        (∃ sl : Slot, ∀ e ∈ s.sched.live, e.slot ≠ sl) ∧
                          st = .quota ∧ s.settings.quotas.get p ≤ s.sched.holdings p))))) →
      exec (.scheduleAt p (atBytes tag a due q report v)) s = .next (answer p ⟨st, 0x20#8, []⟩ s)

/-- SCHEDULE ON EDGE places its entry, WAITING, at the tail of its queue, and nothing else changes (R107 to R110); its checks come in
the order of R109: argument length and action, ranges, the in pin, the out pin, its claim, the tag, the slots, the quota (a spare bit
of the flags byte must be 0: R201). An arming by an edge takes the oldest entry of an owner's queue, due at the stamp plus its
offset, and no other queue changes; an empty queue has no effect (R107, R111, R113). -/
def Obligations.EdgeEntriesQueueAndArmInOrder : Prop :=
  (∀ (p : Port) (tag : Byte) (a : Action) (pin : Pin) (ed : Edge) (offset rearm : Nat) (report : Bool) (v : Option VecNo)
      (slot : Slot) (s : State),
      s.takesFrames p = true → (∀ k level width, a = .pulse k level width → 100 ≤ width ∧ width ≤ 4294967295) →
      offset ≤ 2 ^ 40 → rearm ≤ 65535 → (s.pins.get pin).map.dir = .input → Admissible p tag a slot s →
      ∃ (e : Entry) (u : State), e = ⟨slot, p, tag, a, .edge pin ed offset rearm, report || decide (a = .notify), v⟩ ∧
        exec (.scheduleOnEdge p (onEdgeBytes tag a pin ed offset rearm report v)) s =
          .next (answer p ⟨.ok, 0x21#8, [b1 slot.val]⟩ u) ∧
        u = { s with sched := { s.sched with waiting := s.sched.waiting ++ [e] } } ∧
        u.sched.queue p pin ed = s.sched.queue p pin ed ++ [e]) ∧
    (∀ (p : Port) (args : List Byte) (s : State), s.takesFrames p = true →
      ((∀ n, actionLength (fld args 1 1) = some n → args.length ≠ 15 + n + (if fld args 2 1 / 2 % 2 = 1 then 1 else 0)) →
        exec (.scheduleOnEdge p args) s = .next (answer p ⟨.badArgument, 0x21#8, []⟩ s)) ∧
      ∀ n, actionLength (fld args 1 1) = some n →
        args.length = 15 + n + (if fld args 2 1 / 2 % 2 = 1 then 1 else 0) →
        (fld args 2 1 % 2 = 1 ∨ 8 ≤ fld args 2 1 ∨ 24 ≤ fld args 3 1 ∨ 2 ≤ fld args 4 1 ∨ 2 ^ 40 < fld args 5 8 ∨
          fld args 1 1 ≠ 2 ∧ (24 ≤ fld args 15 1 ∨ 2 ≤ fld args 16 1) ∨ fld args 1 1 = 1 ∧ fld args 17 4 < 100 ∨
          fld args 2 1 / 2 % 2 = 1 ∧ 8 ≤ fld args (15 + n) 1) →
        exec (.scheduleOnEdge p args) s = .next (answer p ⟨.badArgument, 0x21#8, []⟩ s)) ∧
    (∀ (p : Port) (tag : Byte) (a : Action) (pin : Pin) (ed : Edge) (offset rearm : Nat) (report : Bool) (v : Option VecNo)
      (s : State) (st : Status),
      s.takesFrames p = true → (∀ k level width, a = .pulse k level width → 100 ≤ width ∧ width ≤ 4294967295) →
      offset ≤ 2 ^ 40 → rearm ≤ 65535 →
      (st = .wrongDirection ∧ (s.pins.get pin).map.dir ≠ .input ∨
        (s.pins.get pin).map.dir = .input ∧
          (st = .wrongDirection ∧ (∃ k, a.outPin = some k ∧ (s.pins.get k).map.dir ≠ .output) ∨
            (∀ k, a.outPin = some k → (s.pins.get k).map.dir = .output) ∧
              (st = .notOwner ∧ (∃ k, a.outPin = some k ∧ (s.pins.get k).holder ≠ some p) ∨
                (∀ k, a.outPin = some k → (s.pins.get k).holder = some p) ∧
                  (st = .tagInUse ∧ (∃ e ∈ s.sched.live, e.owner = p ∧ e.tag = tag) ∨
                    (∀ e ∈ s.sched.live, ¬(e.owner = p ∧ e.tag = tag)) ∧
                      (st = .full ∧ (∀ sl : Slot, ∃ e ∈ s.sched.live, e.slot = sl) ∨
                        (∃ sl : Slot, ∀ e ∈ s.sched.live, e.slot ≠ sl) ∧
                          st = .quota ∧ s.settings.quotas.get p ≤ s.sched.holdings p))))) →
      exec (.scheduleOnEdge p (onEdgeBytes tag a pin ed offset rearm report v)) s = .next (answer p ⟨st, 0x21#8, []⟩ s)) ∧
    ∀ (pin : Pin) (ed : Edge) (stamp : Nat) (o : Port) (s : State),
      (∀ e rest, s.sched.queue o pin ed = e :: rest →
        ∀ t, t = armOldest pin ed stamp o s →
          t.sched.queue o pin ed = rest ∧
          t.sched.armed = insertArmed ⟨e, min (stamp + e.offset) (2 ^ 64 - 1), .lead⟩ s.sched.armed ∧
          (∀ o' pin' ed', (o', pin', ed') ≠ (o, pin, ed) →
            t.sched.queue o' pin' ed' = s.sched.queue o' pin' ed') ∧
          t = { s with sched := { s.sched with armed := t.sched.armed, waiting := t.sched.waiting } }) ∧
      (s.sched.queue o pin ed = [] → armOldest pin ed stamp o s = s)

/-- The catch-up of R52: the least b + k × period above HT, the skipped occurrences counted against the repeats. -/
def Obligations.CatchUpPassesHubTime : Prop :=
  ∀ (b ht period repeats : Nat), 0 < period → b ≤ ht →
    ∃ k, 1 ≤ k ∧ ht < b + k * period ∧ (∀ j, 1 ≤ j → j < k → b + j * period ≤ ht) ∧
      (catchUp b ht ⟨period, repeats⟩).skipped = k - 1 ∧
      (2 ^ 64 - 1 < b + k * period → (catchUp b ht ⟨period, repeats⟩).after = .removed) ∧
      (b + k * period ≤ 2 ^ 64 - 1 → repeats = 0 →
        (catchUp b ht ⟨period, repeats⟩).after = .again (b + k * period) (.timed (some ⟨period, 0⟩)) ∧
        (catchUp b ht ⟨period, repeats⟩).remaining = 0) ∧
      (b + k * period ≤ 2 ^ 64 - 1 → repeats ≠ 0 → repeats ≤ k →
        (catchUp b ht ⟨period, repeats⟩).after = .removed ∧ (catchUp b ht ⟨period, repeats⟩).remaining = 0) ∧
      (b + k * period ≤ 2 ^ 64 - 1 → k < repeats →
        (catchUp b ht ⟨period, repeats⟩).after = .again (b + k * period) (.timed (some ⟨period, repeats - k⟩)) ∧
        (catchUp b ht ⟨period, repeats⟩).remaining = repeats - k)

/-- EXPIRY in RUN takes every expiry that is due, head after head in list order, each whole before the next, with lateness 0 (R45,
R46, R54, R55): afterwards each ARMED entry has a due greater than the HT count, and nothing outside the schedule, the pins and the
reports changes. That an EXPIRY has lateness 0 whenever it is taken is the model's choice (notes/assumptions/4.md). -/
def Obligations.ExpiryLeavesNoDueBehind : Prop :=
  ∀ s : State, s.powered = true → s.sched.held = false → ArmedSorted s → PeriodsPositive s →
    (∃ a ∈ s.sched.armed, a.due ≤ s.time.ht) →
    ∃ t n, exec .expiry s = .next t ∧ ExpiresInOrder false n s t ∧ 0 < n ∧ FireOnly s t ∧
      (∀ a ∈ t.sched.armed, s.time.ht < a.due) ∧
      ∀ k, (∀ e ∈ s.sched.live, e.action.outPin ≠ some k) → t.pins.get k = s.pins.get k

/-- EXPIRY of a sole entry that falls due, for each action and phase: its drive, its re-insertion, return to its queue or removal, its
FIRED record with the skipped count and the remaining repeats, its raise, and no LATE_FIRE (R45, R47 to R54, R114). -/
def Obligations.ExpiryOfASoleEntry : Prop :=
  ∀ (e : Entry) (due : Nat) (ph : Phase) (s : State),
    s.powered = true → s.sched.held = false → s.sched.armed = [⟨e, due, ph⟩] → due ≤ s.time.ht → s.time.ht < due + 50 →
    due ≤ 2 ^ 63 → (∀ k level width, e.action = .pulse k level width → 100 ≤ width ∧ width ≤ 4294967295) →
    (ph = .lead ∨ ∃ k level width n, e.action = .pulse k level width ∧ ph = .trail n ∧ width ≤ due) →
    (∀ q, e.kind = .timed (some q) → 1000 ≤ q.period ∧ q.period ≤ 2 ^ 40 ∧
      ∀ k level width, e.action = .pulse k level width → width + 100 ≤ q.period) →
    ∃ t, exec .expiry s = .next t ∧ FireOnly s t ∧ countOf t .lateFire = countOf s .lateFire ∧
      (∀ k level, e.action = .set k level → (s.pins.get k).map.dir = .output → (t.pins.get k).driven = some level) ∧
      (∀ k level width, e.action = .pulse k level width → ph = .lead →
        ((s.pins.get k).map.dir = .output → (t.pins.get k).driven = some level) ∧
        t.sched.armed = [⟨e, due + width, .trail 0⟩] ∧ t.sched.waiting = s.sched.waiting ∧ t.rings = s.rings ∧
        t.vectors = s.vectors ∧ t.faults = s.faults) ∧
      (∀ k level width n, e.action = .pulse k level width → ph = .trail n → (s.pins.get k).map.dir = .output →
        (t.pins.get k).driven = some (!level)) ∧
      ((∀ k level width, e.action = .pulse k level width → ph ≠ .lead) →
        Fires ⟨e, due, ph⟩ 0 { s with sched := { s.sched with armed := [] } } t ∧
        (e.kind = .timed none → t.sched.armed = [] ∧ t.sched.waiting = s.sched.waiting) ∧
        (∀ (q : Periodic) (leadDue : Nat), e.kind = .timed (some q) →
          (leadDue = due ∧ ph = .lead ∨ ∃ k level width, e.action = .pulse k level width ∧ leadDue + width = due ∧ ph ≠ .lead) →
          t.sched.waiting = s.sched.waiting ∧
          t.sched.armed = if q.repeats = 1 then [] else
            [⟨{ e with kind := .timed (some ⟨q.period, q.repeats - 1⟩) }, leadDue + q.period, .lead⟩]) ∧
        (∀ pin ed offset rearm, e.kind = .edge pin ed offset rearm → t.sched.armed = [] ∧
          t.sched.waiting = s.sched.waiting ++
            (if rearm = 0 then []
            else [{ e with kind := .edge pin ed offset (if rearm = 65535 then 65535 else rearm - 1) }])) ∧
        (e.report = false → t.rings = s.rings) ∧
        (e.report = true → (s.rings.get e.owner).records.length < 32 → ∃ (remaining lateness : Nat),
          Appended s t e.owner ⟨.fired e.tag e.slot (if ph = .lead then .lead else .trail) lateness 0 remaining, 0,
            decide (0 < lateness), decide (s.disc.state = .locked), s.time.ht, s.time.epoch⟩ ∧
          (ph = .lead → lateness = 0) ∧ (∀ n, ph = .trail n → lateness = min n 4294967295) ∧
          remaining = match e.kind with
            | .timed none => 0
            | .timed (some q) => q.repeats - 1
            | .edge _ _ _ rearm => if rearm = 65535 then 65535 else rearm - 1))

/-- CANCEL of a live entry in each place it may stand, with the trailing drive and its contention check where it stood in TRAIL in
RUN; with none it answers NO_ENTRY (R56, R73, R87, R116). -/
def Obligations.CancelRemovesTheEntry : Prop :=
  ∀ (p : Port) (tag : Byte) (s : State), s.takesFrames p = true →
    ((∀ e ∈ s.sched.live, ¬(e.owner = p ∧ e.tag = tag)) →
      exec (.cancel p [tag]) s = .next (answer p ⟨.noEntry, 0x22#8, []⟩ s)) ∧
    (∀ a ∈ s.sched.armed, a.entry.owner = p → a.entry.tag = tag →
      (s.sched.live.map fun e => (e.owner, e.tag)).Nodup →
      ∃ (pins : Tab 24 PinCell), exec (.cancel p [tag]) s = .next (answer p ⟨.ok, 0x22#8,
          [b1 a.entry.slot.val, 1#8, b1 a.phase.code]⟩
        { s with sched := { s.sched with armed := s.sched.armed.erase a }, pins := pins }) ∧
      ((a.phase = .lead ∨ s.sched.held = true) → pins = s.pins) ∧
      (∀ n k level width, a.phase = .trail n → s.sched.held = false → a.entry.action = .pulse k level width →
        pins = s.pins.set k (drivenCell s.time.rt (!level) (s.pins.get k)))) ∧
    (∀ e ∈ s.sched.waiting, e.owner = p → e.tag = tag → (s.sched.live.map fun e => (e.owner, e.tag)).Nodup →
      exec (.cancel p [tag]) s = .next (answer p ⟨.ok, 0x22#8, [b1 e.slot.val, 0#8, 0#8]⟩
        { s with sched := { s.sched with waiting := s.sched.waiting.erase e } }))

/-- ENTRY QUERY, with every byte of its result, and SCHEDULE LIST answer for the port's own entries and change nothing but the buffer
(R58, R59, R116, R203). That bits 7 to 3 of the flags byte are 0 is the model's choice (notes/assumptions/30.md). -/
def Obligations.EntryReadsChangeNothing : Prop :=
  ∀ (p : Port) (s : State), s.takesFrames p = true →
    (∀ tag : Byte, (∀ e ∈ s.sched.live, ¬(e.owner = p ∧ e.tag = tag)) →
      exec (.entryQuery p [tag]) s = .next (answer p ⟨.noEntry, 0x23#8, []⟩ s)) ∧
    (∀ a ∈ s.sched.armed, a.entry.owner = p → (s.sched.live.map fun e => (e.owner, e.tag)).Nodup →
      ∃ rest : List Byte, exec (.entryQuery p [a.entry.tag]) s = .next (answer p ⟨.ok, 0x23#8,
          [b1 a.entry.slot.val, a.entry.tag, b1 a.entry.kind.code, 1#8, b1 a.phase.code, b1 a.entry.action.code,
            b1 a.entry.flags] ++ beN 8 a.due ++ rest⟩ s) ∧ rest = queryTail a.entry ∧ rest.length = 29) ∧
    (∀ e ∈ s.sched.waiting, e.owner = p → (s.sched.live.map fun e => (e.owner, e.tag)).Nodup →
      ∃ rest : List Byte, exec (.entryQuery p [e.tag]) s = .next (answer p ⟨.ok, 0x23#8,
          [b1 e.slot.val, e.tag, b1 e.kind.code, 0#8, 0#8, b1 e.action.code, b1 e.flags] ++ beN 8 0 ++ rest⟩ s) ∧
        rest = queryTail e ∧ rest.length = 29) ∧
    ∃ armed waiting : List Entry, exec (.scheduleList p []) s = .next (answer p ⟨.ok, 0x24#8,
        [b1 armed.length, b1 waiting.length] ++ (armed ++ waiting).map (·.tag)⟩ s) ∧
      armed = (s.sched.armed.map (·.entry)).filter (fun e => decide (e.owner = p)) ∧
      waiting = allPins.flatMap fun pin => s.sched.queue p pin .rise ++ s.sched.queue p pin .fall

/-- HOLD and the fault log's hold notice: RUN becomes HELD and every OUT pin goes to its safe level, with a contention check where
that is a change; in HELD nothing changes but the notice taken (R61, R62, R85, R87). That a notice handed and not yet taken is one
of a count, which HOLD_NOTICE lowers by one, is read from R54 and R157 by inference (notes/assumptions/16.md). -/
def Obligations.HoldDrivesTheSafeLevels : Prop :=
  ∀ (s : State),
    (∀ p : Port, s.takesFrames p = true →
      (∀ args, args ≠ [] → exec (.hold p args) s = .next (answer p ⟨.badArgument, 0x25#8, []⟩ s)) ∧
      (s.settings.holder ≠ some p → exec (.hold p []) s = .next (answer p ⟨.notPermitted, 0x25#8, []⟩ s))) ∧
    (∀ p : Port, s.takesFrames p = true → s.settings.holder = some p →
      ∃ pins : Tab 24 PinCell, exec (.hold p []) s =
          .next (answer p ⟨.ok, 0x25#8, [1#8]⟩ { s with sched := { s.sched with held := true }, pins := pins }) ∧
        (s.sched.held = true → pins = s.pins) ∧
        (s.sched.held = false → ∀ k, pins.get k = drivenCell s.time.rt (s.pins.get k).map.safe (s.pins.get k))) ∧
    (∀ n : Nat, s.powered = true → s.sched.holdNotices = n + 1 →
      ∃ pins : Tab 24 PinCell, exec .holdNotice s =
          .next { s with sched := { s.sched with held := true, holdNotices := n }, pins := pins } ∧
        (s.sched.held = true → pins = s.pins) ∧
        (s.sched.held = false → ∀ k, pins.get k = drivenCell s.time.rt (s.pins.get k).map.safe (s.pins.get k)))

/-- RESUME: its checks in order; in RUN it changes nothing; in HELD it returns to RUN and takes every expiry that is due, head after
head in list order, with lateness HT minus the due; its result is their number (R46, R54, R64). -/
def Obligations.ResumeReturnsToRun : Prop :=
  ∀ (p : Port) (s : State), s.takesFrames p = true →
    (∀ args, args ≠ [] → exec (.resume p args) s = .next (answer p ⟨.badArgument, 0x26#8, []⟩ s)) ∧
    (s.settings.holder ≠ some p → exec (.resume p []) s = .next (answer p ⟨.notPermitted, 0x26#8, []⟩ s)) ∧
    (s.settings.holder = some p → s.faults.faultnLow = true →
      exec (.resume p []) s = .next (answer p ⟨.faultActive, 0x26#8, []⟩ s)) ∧
    (s.settings.holder = some p → s.faults.faultnLow = false → s.sched.held = false →
      exec (.resume p []) s = .next (answer p ⟨.ok, 0x26#8, [0#8]⟩ s)) ∧
    (s.settings.holder = some p → s.faults.faultnLow = false → s.sched.held = true → ArmedSorted s → PeriodsPositive s →
      ∃ (n : Nat) (u : State), exec (.resume p []) s = .next (answer p ⟨.ok, 0x26#8, [b1 n]⟩ u) ∧
        ExpiresInOrder true n { s with sched := { s.sched with held := false } } u ∧
        FireOnly { s with sched := { s.sched with held := false } } u ∧ (∀ a ∈ u.sched.armed, s.time.ht < a.due) ∧
        ((∀ a ∈ s.sched.armed, s.time.ht < a.due) →
          n = 0 ∧ u = { s with sched := { s.sched with held := false } }))

/-- The three requests by which the settings holder sets working values, and SUBSCRIBE: each sets its own value and nothing else
(R33, R60, R102, R172). The refusals of the settings holder's requests: a value out of its range is BAD_ARGUMENT for REF CONFIGURE,
DISCIPLINE PROFILE, SCHEDULE CONFIGURE, PIN CONFIGURE and PORT LIMITS SET, and for SUBSCRIBE (R31, R33, R60, R75, R102, R172); PORT
LIMITS SET is then FROZEN while the frozen flag is set, and otherwise IN_USE where a quota lies below the port's holdings (R172). -/
def Obligations.ValueRequestsSetTheirValue : Prop :=
  ∀ (p : Port) (s : State), s.takesFrames p = true →
    (s.settings.holder = some p → ∀ q : Profile, q.inRange = true → q.lockIn < q.lockOut → q.lockOut ≤ q.trkIn →
      q.trkIn < q.acqIn → q.acqIn ≤ q.stepTh →
      exec (.disciplineProfile p q.bytes) s =
        .next (answer p ⟨.ok, 0x19#8, []⟩ { s with disc := { s.disc with profile := q } })) ∧
    (s.settings.holder = some p → ∀ v : Nat, v ≤ 1000000 →
      exec (.scheduleConfigure p (beN 4 v)) s =
        .next (answer p ⟨.ok, 0x27#8, beN 4 v⟩ { s with sched := { s.sched with lateThreshold := v } })) ∧
    (s.settings.holder = some p → s.settings.frozen = false → ∀ quotas leases : Tab 4 Nat,
      quotas.get 0 + quotas.get 1 + quotas.get 2 + quotas.get 3 ≤ 64 →
      (∀ o, leases.get o = 0 ∨ 10 ≤ leases.get o ∧ leases.get o ≤ 60000) →
      (∀ o, s.sched.holdings o ≤ quotas.get o) →
      ∃ args : List Byte, args = allPorts.map (fun o => b1 (quotas.get o)) ++ allPorts.flatMap (fun o => beN 2 (leases.get o)) ∧
        exec (.portLimitsSet p args) s = .next (answer p ⟨.ok, 0x62#8, args⟩ { s with
          settings := { s.settings with quotas := quotas }
          ports := .build fun o => { s.ports.get o with defaultLeaseMs := leases.get o } })) ∧
    (∀ (k : Pin) (mode : SubMode),
      ((s.pins.get k).map.dir = .input → exec (.subscribe p [b1 k.val, b1 mode.code]) s =
        .next (answer p ⟨.ok, 0x38#8, [b1 k.val, b1 mode.code]⟩
          { s with subs := s.subs.set p ((s.subs.get p).set k mode) })) ∧
      ((s.pins.get k).map.dir ≠ .input → exec (.subscribe p [b1 k.val, b1 mode.code]) s =
        .next (answer p ⟨.wrongDirection, 0x38#8, []⟩ s))) ∧
    (∀ args : List Byte, args.length = 2 → (24 ≤ fld args 0 1 ∨ 4 ≤ fld args 1 1) →
      exec (.subscribe p args) s = .next (answer p ⟨.badArgument, 0x38#8, []⟩ s)) ∧
    (s.settings.holder = some p → ∀ args : List Byte,
      (args.length = 7 → (2 ≤ fld args 0 1 ∨ fld args 1 4 < 1000 ∨ 1000000 < fld args 1 4 ∨ 2 ≤ fld args 5 1 ∨
          2 ≤ fld args 6 1) →
        exec (.refConfigure p args) s = .next (answer p ⟨.badArgument, 0x18#8, []⟩ s)) ∧
      (args.length = 20 → ((∃ k, k < 5 ∧ (fld args (4 * k) 4 < 1 ∨ 100000000 < fld args (4 * k) 4)) ∨
          fld args 4 4 ≤ fld args 0 4 ∨ fld args 8 4 < fld args 4 4 ∨ fld args 12 4 ≤ fld args 8 4 ∨
          fld args 16 4 < fld args 12 4) →
        exec (.disciplineProfile p args) s = .next (answer p ⟨.badArgument, 0x19#8, []⟩ s)) ∧
      (args.length = 4 → 1000000 < be args →
        exec (.scheduleConfigure p args) s = .next (answer p ⟨.badArgument, 0x27#8, []⟩ s)) ∧
      (∀ level : Level, args.length = 5 →
        (24 ≤ fld args 0 1 ∨ 3 ≤ fld args 1 1 ∨ 2 ≤ fld args 2 1 ∨ 1023 < fld args 3 2) →
        exec (.pinConfigure p args level) s = .next (answer p ⟨.badArgument, 0x30#8, []⟩ s)) ∧
      (args.length = 12 → ∀ outOfRange : Prop, (outOfRange ↔
          64 < fld args 0 1 + fld args 1 1 + fld args 2 1 + fld args 3 1 ∨
          ∃ o : Port, fld args (4 + 2 * o.val) 2 ≠ 0 ∧
            (fld args (4 + 2 * o.val) 2 < 10 ∨ 60000 < fld args (4 + 2 * o.val) 2)) →
        (outOfRange → exec (.portLimitsSet p args) s = .next (answer p ⟨.badArgument, 0x62#8, []⟩ s)) ∧
        (¬outOfRange → s.settings.frozen = true →
          exec (.portLimitsSet p args) s = .next (answer p ⟨.frozen, 0x62#8, []⟩ s)) ∧
        (¬outOfRange → s.settings.frozen = false → (∃ o : Port, fld args o.val 1 < s.sched.holdings o) →
          exec (.portLimitsSet p args) s = .next (answer p ⟨.inUse, 0x62#8, []⟩ s))))

/-- Every step keeps the slots of live entries apart, the tags of one owner apart, and every port's holdings within its quota. -/
def Obligations.EveryStepKeepsSlotsTagsAndQuotas : Prop :=
  ∀ s t : State, SlotsTied s → step s = .next t → SlotsTied t

/-! ## Output pins -/

/-- PIN CONFIGURE that changes a direction or keeps it, with the contention check that its drive starts, and its refusals FROZEN and
IN_USE (R75 to R77, R87, R104). -/
def Obligations.PinConfigureWritesTheMap : Prop :=
  ∀ (p : Port) (k : Pin) (m : PinMap) (level : Level) (s : State), s.takesFrames p = true → s.settings.holder = some p →
    m.debounceUs ≤ 1023 →
    ∃ args : List Byte, args = [b1 k.val, b1 m.dir.code, bBool m.safe] ++ beN 2 m.debounceUs ∧
      (s.settings.frozen = true → exec (.pinConfigure p args level) s = .next (answer p ⟨.frozen, 0x30#8, []⟩ s)) ∧
      (s.settings.frozen = false → (s.pins.get k).map.dir ≠ m.dir →
        ((s.pins.get k).holder ≠ none ∨ (∃ q, (s.subs.get q).get k ≠ .none) ∨
          ∃ e ∈ s.sched.live, e.action.outPin = some k ∨ e.inPin = some k) →
        exec (.pinConfigure p args level) s = .next (answer p ⟨.inUse, 0x30#8, []⟩ s)) ∧
      (s.settings.frozen = false →
        ((s.pins.get k).map.dir = m.dir ∨
          (s.pins.get k).holder = none ∧ (∀ q, (s.subs.get q).get k = .none) ∧
            ∀ e ∈ s.sched.live, e.action.outPin ≠ some k ∧ e.inPin ≠ some k) →
        ∃ (c : PinCell) (w : Option Watch), exec (.pinConfigure p args level) s =
            .next (answer p ⟨.ok, 0x30#8, args⟩ { s with pins := s.pins.set k c, watch := s.watch.set k w }) ∧
          c.map = m ∧ c.holder = (s.pins.get k).holder ∧
          (m.dir ≠ .output → c.driven = none ∧ c.check = none) ∧
          (m.dir = .output → (s.pins.get k).map.dir ≠ .output → c.driven = some m.safe ∧
            c.check = some (s.time.rt + 2000)) ∧
          (m.dir = .output → (s.pins.get k).map.dir = .output → (s.pins.get k).holder = none ∨ s.sched.held = true →
            c = drivenCell s.time.rt m.safe { s.pins.get k with map := m }) ∧
          (m.dir = .output → (s.pins.get k).map.dir = .output → (s.pins.get k).holder ≠ none → s.sched.held = false →
            c.driven = (s.pins.get k).driven ∧ c.check = (s.pins.get k).check) ∧
          (m.dir = .input → w = if (s.pins.get k).map.dir = .input then s.watch.get k else some ⟨none, level, level⟩) ∧
          (m.dir ≠ .input → w = none))

/-- PIN CLAIM, SETTINGS CLAIM and SETTINGS RELEASE: the checks in order, and the claim given or taken away (R78, R169, R170). -/
def Obligations.ClaimsAreGrantedOneAtATime : Prop :=
  ∀ (p : Port) (s : State), s.takesFrames p = true →
    (∀ args : List Byte, args.length ≠ 1 ∨ 24 ≤ fld args 0 1 →
      exec (.pinClaim p args) s = .next (answer p ⟨.badArgument, 0x31#8, []⟩ s)) ∧
    (∀ args : List Byte, args ≠ [] →
      exec (.settingsClaim p args) s = .next (answer p ⟨.badArgument, 0x60#8, []⟩ s)) ∧
    (∀ k : Pin,
      ((s.ports.get p).lease = .expired → exec (.pinClaim p [b1 k.val]) s = .next (answer p ⟨.lapsed, 0x31#8, []⟩ s)) ∧
      ((s.ports.get p).lease ≠ .expired →
        ((s.pins.get k).map.dir ≠ .output →
          exec (.pinClaim p [b1 k.val]) s = .next (answer p ⟨.wrongDirection, 0x31#8, []⟩ s)) ∧
        ((s.pins.get k).map.dir = .output →
          (∀ h, (s.pins.get k).holder = some h → h ≠ p →
            exec (.pinClaim p [b1 k.val]) s = .next (answer p ⟨.heldBy, 0x31#8, [b1 h.val]⟩ s)) ∧
          ((s.pins.get k).holder = some p →
            exec (.pinClaim p [b1 k.val]) s = .next (answer p ⟨.ok, 0x31#8, [b1 k.val, b1 p.val]⟩ s)) ∧
          ((s.pins.get k).holder = none →
            exec (.pinClaim p [b1 k.val]) s = .next (answer p ⟨.ok, 0x31#8, [b1 k.val, b1 p.val]⟩
              { s with pins := s.pins.set k { s.pins.get k with holder := some p } }))))) ∧
    ((s.ports.get p).lease = .expired → exec (.settingsClaim p []) s = .next (answer p ⟨.lapsed, 0x60#8, []⟩ s)) ∧
    ((s.ports.get p).lease ≠ .expired →
      (∀ h, s.settings.holder = some h → h ≠ p →
        exec (.settingsClaim p []) s = .next (answer p ⟨.heldBy, 0x60#8, [b1 h.val]⟩ s)) ∧
      (s.settings.holder = some p → exec (.settingsClaim p []) s = .next (answer p ⟨.ok, 0x60#8, [b1 p.val]⟩ s)) ∧
      (s.settings.holder = none → s.settings.store.isWriting = true →
        exec (.settingsClaim p []) s = .next (answer p ⟨.storeBusy, 0x60#8, []⟩ s)) ∧
      (s.settings.holder = none → s.settings.store.isWriting = false →
        exec (.settingsClaim p []) s = .next (answer p ⟨.ok, 0x60#8, [b1 p.val]⟩
          { s with settings := { s.settings with holder := some p } }))) ∧
    (s.settings.holder = some p → exec (.settingsRelease p []) s = .next (answer p ⟨.ok, 0x61#8, []⟩
      { s with settings := { s.settings with holder := none } })) ∧
    (s.settings.holder ≠ some p → exec (.settingsRelease p []) s = .next (answer p ⟨.notOwner, 0x61#8, []⟩ s))

/-- PIN RELEASE: the port's entries on the pin are purged, the claim is cleared and the pin goes to its safe level, with a contention
check where that is a change (R80, R87); a pin of 24 or more, or another length, is BAD_ARGUMENT. A ring with room
for them takes a CANCELLED record of each purged entry, in SCHEDULE LIST order and with reason RELEASED, and no other record; no
vector is raised but by a crossing of the mark (R67, R80, R127, R129). -/
def Obligations.PinReleasePurgesAndDrivesSafe : Prop :=
  ∀ (p : Port) (k : Pin) (s : State), s.takesFrames p = true →
    (∀ args : List Byte, args.length ≠ 1 ∨ 24 ≤ fld args 0 1 →
      exec (.pinRelease p args) s = .next (answer p ⟨.badArgument, 0x32#8, []⟩ s)) ∧
    ((s.pins.get k).holder ≠ some p → exec (.pinRelease p [b1 k.val]) s = .next (answer p ⟨.notOwner, 0x32#8, []⟩ s)) ∧
    ((s.pins.get k).holder = some p →
      ∃ (n : Nat) (u : State), exec (.pinRelease p [b1 k.val]) s =
          .next (answer p ⟨.ok, 0x32#8, [b1 k.val, b1 n]⟩ u) ∧
        FireOnly s u ∧
        u.sched.armed = s.sched.armed.filter (fun a => !(a.entry.drives p k)) ∧
        u.sched.waiting = s.sched.waiting.filter (fun e => !(e.drives p k)) ∧
        n = (s.sched.armed.filter fun a => a.entry.drives p k).length +
          ((s.sched.waitingOf p).filter fun e => e.drives p k).length ∧
        u.pins.get k = drivenCell s.time.rt (s.pins.get k).map.safe { s.pins.get k with holder := none } ∧
        (∀ j, j ≠ k → u.pins.get j = s.pins.get j) ∧ n = (entriesOnPin p k s.sched).length ∧
        ((s.rings.get p).records.length + n ≤ 32 →
          PostedAll s u p ((entriesOnPin p k s.sched).map fun e => .cancelled e.tag e.slot .released) ∧
          (u.rings.get p).records.length = (s.rings.get p).records.length + n ∧
          (∀ q, q ≠ p → u.rings.get q = s.rings.get q) ∧ u.faults = s.faults ∧
          ((s.rings.get p).records.length + n ≤ (s.rings.get p).mark ∨ (s.rings.get p).mark < (s.rings.get p).records.length →
            u.vectors = s.vectors)))

/-- PIN WRITE: the four checks in order; a passing write sets the driven level, and a change of it starts the contention check; the
schedule is not touched (R73, R83, R87). -/
def Obligations.PinWriteDrivesTheLevel : Prop :=
  ∀ (p : Port) (args : List Byte) (s : State), s.takesFrames p = true →
    (args.length ≠ 2 ∨ 24 ≤ fld args 0 1 ∨ 2 ≤ fld args 1 1 →
      exec (.pinWrite p args) s = .next (answer p ⟨.badArgument, 0x33#8, []⟩ s)) ∧
    ∀ (k : Pin) (level : Level), args = [b1 k.val, bBool level] →
      ((s.pins.get k).map.dir ≠ .output →
        exec (.pinWrite p args) s = .next (answer p ⟨.wrongDirection, 0x33#8, []⟩ s)) ∧
      ((s.pins.get k).map.dir = .output → (s.pins.get k).holder ≠ some p →
        exec (.pinWrite p args) s = .next (answer p ⟨.notOwner, 0x33#8, []⟩ s)) ∧
      ((s.pins.get k).map.dir = .output → (s.pins.get k).holder = some p → s.sched.held = true →
        exec (.pinWrite p args) s = .next (answer p ⟨.wrongState, 0x33#8, []⟩ s)) ∧
      ((s.pins.get k).map.dir = .output → (s.pins.get k).holder = some p → s.sched.held = false →
        exec (.pinWrite p args) s = .next (answer p ⟨.ok, 0x33#8, [b1 k.val, bBool level]⟩
          { s with pins := s.pins.set k (if (s.pins.get k).driven = some level then s.pins.get k
            else { s.pins.get k with driven := some level, check := some (s.time.rt + 2000) }) }))

/-- IDENTIFY, PORT STATUS, TIME READ, TIME READ SCALED, PIN READ and SETTINGS READ: the result is sampled and nothing else changes
(R10, R11, R86, R174, R189, R190). The first 93 bytes of SETTINGS READ are those of the image (R175, R203).
That bit 3 of a PIN READ byte is 0 is the model's choice (notes/assumptions/30.md), and that the bits of SETTINGS READ without a
field are 0 is deduced from R175 (notes/assumptions/31.md). -/
def Obligations.StateReadsChangeNothing : Prop :=
  ∀ (p : Port) (s : State), s.takesFrames p = true →
    exec (.identify p []) s = .next (answer p ⟨.ok, 0x01#8,
      [0x50#8, 0x04#8, 0x24#8, 2#8, b1 p.val, b1 s.settings.store.code, bBool s.settings.frozen]⟩ s) ∧
    (∃ left claimed : Nat, exec (.portStatus p []) s = .next (answer p ⟨.ok, 0x02#8,
        [b1 (s.ports.get p).lease.code] ++ beN 8 left ++ beN 2 (s.ports.get p).leasePeriodMs ++
          [b1 (s.sched.holdings p), b1 (s.settings.quotas.get p)] ++ beN 3 claimed ++
          [match s.settings.holder with | some h => b1 h.val | none => 0xFF#8,
            b1 (s.rings.get p).records.length, bBool (s.vectors.get p).enable, bBool (s.vectors.get p).functionMask]⟩ s) ∧
      (∀ point, (s.ports.get p).lease = .running point → left = point - s.time.rt) ∧
      ((s.ports.get p).lease = .none ∨ (s.ports.get p).lease = .expired → left = 0) ∧
      claimed < 2 ^ 24 ∧ ∀ k : Pin, claimed.testBit k.val = decide ((s.pins.get k).holder = some p)) ∧
    (exec (.timeRead p []) s = .next (answer p ⟨.ok, 0x10#8, beN 8 s.time.ht ++ beN 8 s.time.rt ++
      beN 2 s.time.epoch.toNat ++ [b1 s.disc.state.code, if s.disc.state = .locked then 1#8 else 0#8]⟩ s)) ∧
    (∀ n : Nat, n ≤ 32 → exec (.timeReadScaled p [b1 n]) s =
      .next (answer p ⟨.ok, 0x11#8, b1 n :: beN 4 (s.time.ht / 2 ^ n % 2 ^ 32)⟩ s)) ∧
    (∀ n : Nat, 33 ≤ n → n ≤ 255 →
      exec (.timeReadScaled p [b1 n]) s = .next (answer p ⟨.badArgument, 0x11#8, []⟩ s)) ∧
    (∃ cell : Pin → Nat, exec (.pinRead p []) s = .next (answer p ⟨.ok, 0x34#8, allPins.map fun k => b1 (cell k)⟩ s) ∧
      ∀ k, cell k = (s.pins.get k).map.dir.code +
        (match (s.pins.get k).map.dir with
          | .output => if (s.pins.get k).driven = some true then 4 else 0
          | .input => if (s.watch.get k).any (·.confirmed) then 4 else 0
          | .unused => 0) +
        16 * (match (s.pins.get k).holder with | some h => h.val | none => 15)) ∧
    (exec (.settingsRead p []) s = .next (answer p ⟨.ok, 0x63#8, (imageOf (workingSettings s)).take 93 ++
      [b1 ((if s.faults.safeOnMajor then 1 else 0) + (if s.settings.frozen then 2 else 0) + 4 * s.settings.store.code),
        b1 ((match s.settings.holder with | some h => h.val | none => 15) +
          16 * (match s.settings.requester with | some h => h.val | none => 15))]⟩ s))

/-- CONTENTION_CHECK when RT has reached the check point: the check is idle again, and a level that differs from the driven level is
an occurrence of PIN_CONTENTION with the pin and the driven level (R87, R88). That a check before its point leaves the state is the
model's choice (notes/assumptions/2.md). -/
def Obligations.ContentionCheckComparesLevels : Prop :=
  ∀ (k : Pin) (level driven : Level) (point : Nat) (s : State), s.powered = true → (s.pins.get k).check = some point →
    (s.time.rt < point → exec (.contentionCheck k level) s = .next s) ∧
    (point ≤ s.time.rt → (s.pins.get k).driven = some driven →
      ∃ u t, u = { s with pins := s.pins.set k { s.pins.get k with check := none } } ∧
        exec (.contentionCheck k level) s = .next t ∧ (level = driven → t = u) ∧
        (level ≠ driven → t = occur .pinContention none (.contention k driven) u ∧ LogOnly u t ∧
          countOf t .pinContention = bumped (countOf s .pinContention)))

/-- Every step keeps each OUT pin driven, at its safe level where it has no holder or the schedule is HELD, and each driving entry's
owner the holder of its pin. -/
def Obligations.EveryStepKeepsPinsAndClaims : Prop :=
  ∀ s t : State, PinsTied s → step s = .next t → PinsTied t

/-! ## Input capture -/

/-- TRANSITION: in WINDOW it is not looked at; in IDLE it opens a window, or with a debounce window of 0 it confirms the edge, with
a CAPTURE record to each subscriber and to no other port (R125; R91, R93, R94, R96, R99, R100). DEBOUNCE_WINDOW_END: a level that
differs from the confirmed one confirms the edge with the stamp of the first transition; an equal one ends the window with no edge
(R95, R99, R100). A confirmed edge then reaches the schedule with its stamp: `Confirmed` arms the oldest entry of each owner's queue
in port order, and in RUN the entries that are due expire late (R101, R111, R112). That a transition to the level already sensed,
and a window end before its point, leave the state is the model's choice (notes/assumptions/2.md), and so is the level sensed that
the watch record keeps, also inside a window (notes/assumptions/19.md). -/
def Obligations.CaptureEventsConfirmEdges : Prop :=
  ∀ (k : Pin) (level : Level) (w : Watch) (s : State), s.powered = true → s.watch.get k = some w →
    (level = w.sensed → exec (.transition k level) s = .next s) ∧
    (level ≠ w.sensed → w.window ≠ none → exec (.transition k level) s =
      .next { s with watch := s.watch.set k (some { w with sensed := level }) }) ∧
    (level ≠ w.sensed → w.window = none → (s.pins.get k).map.debounceUs ≠ 0 → exec (.transition k level) s =
      .next { s with watch := s.watch.set k (some ⟨some ⟨s.time.rt + (s.pins.get k).map.debounceUs * 1000, s.time.ht,
        s.time.epoch, decide (s.disc.state = .locked), false⟩, w.confirmed, level⟩) }) ∧
    (level ≠ w.sensed → w.window = none → (s.pins.get k).map.debounceUs = 0 →
      ∃ t, exec (.transition k level) s = .next t ∧
        FireOnly { s with watch := s.watch.set k (some ⟨none, level, level⟩) } t ∧
        Confirmed k (Edge.ofLevel level) s.time.ht { s with watch := s.watch.set k (some ⟨none, level, level⟩) } t ∧
        CapturedBySubscribers k (Edge.ofLevel level) s t ∧
        ∀ p : Port, ((s.subs.get p).get k).includes (Edge.ofLevel level) = true → (s.rings.get p).records.length < 32 →
          Appended s t p ⟨.capture k (Edge.ofLevel level), 0, false, decide (s.disc.state = .locked), s.time.ht,
            s.time.epoch⟩) ∧
    ∀ d : Window, w.window = some d →
      (s.time.rt < d.windowEnd → exec (.debounceWindowEnd k level) s = .next s) ∧
      (d.windowEnd ≤ s.time.rt → level = w.confirmed → exec (.debounceWindowEnd k level) s =
        .next { s with watch := s.watch.set k (some ⟨none, level, level⟩) }) ∧
      (d.windowEnd ≤ s.time.rt → level ≠ w.confirmed →
        ∃ t, exec (.debounceWindowEnd k level) s = .next t ∧
          FireOnly { s with watch := s.watch.set k (some ⟨none, level, level⟩) } t ∧
          Confirmed k (Edge.ofLevel level) d.stampHt { s with watch := s.watch.set k (some ⟨none, level, level⟩) } t ∧
          CapturedBySubscribers k (Edge.ofLevel level) s t ∧
          ∀ p : Port, ((s.subs.get p).get k).includes (Edge.ofLevel level) = true → (s.rings.get p).records.length < 32 →
            Appended s t p ⟨.capture k (Edge.ofLevel level), 0, d.stepMark, d.stampLocked, d.stampHt, d.stampEpoch⟩)

/-- Every step keeps a watch record for each IN pin and no other, IDLE ones with sensed = confirmed, and the in pins of entries IN. -/
def Obligations.EveryStepKeepsTheWatchRecords : Prop :=
  ∀ s t : State, WatchTied s → step s = .next t → WatchTied t

/-! ## Event rings -/

/-- A posting to one ring: below 32 records it is appended with the pending-drop count, at 32 it is dropped; the mark and the first
drop raise their classes; no other ring changes (R126 to R128, steps 1 to 3). The first drop of an episode is then an occurrence of
RING_OVERFLOW for the port (R128, step 4), and after it those of the other rings whose episodes its FAULT record begins, in an order
that R158 leaves open; any other posting brings no occurrence. -/
def Obligations.RingAppendsOrDrops : Prop :=
  ∀ (p : Port) (r : Record) (s t : State) (first : Bool), ringPut p r s = (t, first) →
    LogOnly s t ∧ t.faults = s.faults ∧ t.choices = s.choices ∧ t.sched = s.sched ∧
    (∀ q, q ≠ p → t.rings.get q = s.rings.get q) ∧
    ((s.rings.get p).records.length < 32 → first = false ∧
      t.rings.get p = { s.rings.get p with
        records := (s.rings.get p).records ++ [{ r with dropped := (s.rings.get p).pendingDrops }], pendingDrops := 0 } ∧
      t.vectors = (if (s.rings.get p).records.length = (s.rings.get p).mark then (raiseClass p .ringMark s).vectors
        else s.vectors)) ∧
    (32 ≤ (s.rings.get p).records.length →
      t.rings.get p = { s.rings.get p with pendingDrops := bumped (s.rings.get p).pendingDrops } ∧
      (first = true ↔ (s.rings.get p).pendingDrops = 0) ∧
      t.vectors = (if (s.rings.get p).pendingDrops = 0 then (raiseClass p .ringOverflow s).vectors else s.vectors)) ∧
    (first = false → post p r s = t) ∧
    (first = true → ∀ (u : State) (others : List Port), occurOne .ringOverflow (some p) .none t = (u, others) →
      LogOnly s (post p r s) ∧ (others = [] → post p r s = u) ∧ p ∉ others ∧
      (∃ (order : List Port) (draws : Nat), order.Perm others ∧
        post p r s = (occurOverflows order { u with choices := draws }).1) ∧
      bumped (countOf s .ringOverflow) ≤ countOf (post p r s) .ringOverflow ∧
      (s.faults.capture = none → (s.faults.cells.get 5).masked = false →
        (post p r s).faults.capture = some ⟨.ringOverflow, s.time.ht, s.time.epoch, some p, .none⟩))

/-- EVENT READ removes the oldest records into the result, oldest first, 24 bytes each, laid out as R204 gives them with the number of
records behind each; RING CONFIGURE sets the mark and the selection and tests the count against the new mark; an argument out of its
range is BAD_ARGUMENT (R130, R132, R201, R204). That bits 7 to 2 of a record's flags byte are 0 is the model's choice
(notes/assumptions/30.md). -/
def Obligations.RingRequestsReadAndConfigure : Prop :=
  ∀ (p : Port) (s : State), s.takesFrames p = true →
    (∀ n : Nat, 1 ≤ n → n ≤ 4 →
      ∃ data : List Byte, exec (.eventRead p [b1 n]) s = .next (answer p ⟨.ok, 0x40#8, data⟩
          { s with rings := s.rings.set p { s.rings.get p with records := (s.rings.get p).records.drop n } }) ∧
        data.length = 24 * min n (s.rings.get p).records.length ∧
        ∀ before r behind, (s.rings.get p).records = before ++ r :: behind → before.length < n →
          (data.drop (24 * before.length)).take 24 = recordLayout behind.length r) ∧
    (∀ n : Nat, n = 0 ∨ 5 ≤ n → n ≤ 255 →
      exec (.eventRead p [b1 n]) s = .next (answer p ⟨.badArgument, 0x40#8, []⟩ s)) ∧
    (∀ (mark : Nat) (d f : Bool), mark ≤ 31 →
      ∃ u : State, u = { s with rings := s.rings.set p { s.rings.get p with
          mark := mark, selDiscipline := d, selFault := f } } ∧
        exec (.ringConfigure p [b1 mark, bBool d, bBool f]) s =
          .next (answer p ⟨.ok, 0x41#8, [b1 mark, bBool d, bBool f, b1 (s.rings.get p).records.length]⟩
            (if mark < (s.rings.get p).records.length then raiseClass p .ringMark u else u))) ∧
    ∀ mark d f : Byte, 32 ≤ mark.toNat ∨ 2 ≤ d.toNat ∨ 2 ≤ f.toNat →
      exec (.ringConfigure p [mark, d, f]) s = .next (answer p ⟨.badArgument, 0x41#8, []⟩ s)

/-- Every step keeps every ring within 32 records, its mark within 31 and its counts within 255. -/
def Obligations.EveryStepKeepsRingsBounded : Prop :=
  ∀ s t : State, RingsBounded s → step s = .next t → RingsBounded t

/-! ## Notification vectors -/

/-- A raise on a vector, by notify enable and the vector's state (the table of R141); the line follows (R143); nothing else changes. -/
def Obligations.RaiseFollowsTheTable : Prop :=
  ∀ (v : VecNo) (n : NotifyUnit),
    (n.enable = false → n.raise v = n) ∧
    (n.enable = true →
      (n.raise v).enable = true ∧ (n.raise v).functionMask = n.functionMask ∧ (n.raise v).classMap = n.classMap ∧
      (∀ u, u ≠ v → (n.raise v).vecs.get u = n.vecs.get u) ∧
      ((n.vecs.get v).state = .idle → (n.raise v).vecs.get v =
        ⟨if (n.vecs.get v).masked = true ∨ n.functionMask = true then .pending else .active, 1, (n.vecs.get v).masked⟩) ∧
      ((n.vecs.get v).state ≠ .idle → (n.raise v).vecs.get v =
        { n.vecs.get v with count := bumped (n.vecs.get v).count }) ∧
      NotifyLineTied (n.raise v))

/-- VECTOR ACK, NOTIFY CONTROL, VECTOR CONFIGURE and VECTOR READ: what each does to the eight vectors of its own port; the line
follows, and no other port's vectors change; a vector of 8 or more, or a value that is neither 0 nor 1, is BAD_ARGUMENT (R143 to
R147). -/
def Obligations.VectorRequestsActOnTheirPort : Prop :=
  ∀ (p : Port) (s : State), s.takesFrames p = true →
    (∀ v : VecNo, ∃ n : NotifyUnit, exec (.vectorAck p [b1 v.val]) s = .next (answer p ⟨.ok, 0x49#8,
        [b1 v.val, b1 ((s.vectors.get p).vecs.get v).state.code,
          if ((s.vectors.get p).vecs.get v).state = .idle then 0#8 else b1 ((s.vectors.get p).vecs.get v).count]⟩
        { s with vectors := s.vectors.set p n }) ∧
      (((s.vectors.get p).vecs.get v).state = .idle → n = s.vectors.get p) ∧
      (((s.vectors.get p).vecs.get v).state ≠ .idle → NotifyLineTied n ∧ n = { s.vectors.get p with
        vecs := (s.vectors.get p).vecs.set v ⟨.idle, 0, ((s.vectors.get p).vecs.get v).masked⟩
        notifynLow := n.notifynLow })) ∧
    (∀ enable mask : Bool, ∃ n : NotifyUnit, exec (.notifyControl p [bBool enable, bBool mask]) s =
        .next (answer p ⟨.ok, 0x4A#8, [bBool enable, bBool mask, bBool n.notifynLow]⟩
          { s with vectors := s.vectors.set p n }) ∧
      NotifyLineTied n ∧ n.enable = enable ∧ n.functionMask = mask ∧ n.classMap = (s.vectors.get p).classMap ∧
      ∀ v, (n.vecs.get v).masked = ((s.vectors.get p).vecs.get v).masked ∧
        (enable = false → (n.vecs.get v).state = .idle ∧ (n.vecs.get v).count = 0) ∧
        (enable = true → (n.vecs.get v).count = ((s.vectors.get p).vecs.get v).count ∧
          (n.vecs.get v).state =
            if (s.vectors.get p).functionMask = mask then ((s.vectors.get p).vecs.get v).state
            else match ((s.vectors.get p).vecs.get v).state with
              | .idle => .idle
              | .active => if mask = true then .pending else .active
              | .pending => if mask = false ∧ ((s.vectors.get p).vecs.get v).masked = false then .active else .pending)) ∧
    (∀ (masks : Tab 8 Bool) (classMap : Tab 6 VecNo), ∃ (args : List Byte) (n : NotifyUnit),
      args = allVecs.map (fun v => bBool (masks.get v)) ++
        ([0, 1, 2, 3, 4, 5] : List (Fin 6)).map (fun c => b1 (classMap.get c).val) ∧
      exec (.vectorConfigure p args) s =
        .next (answer p ⟨.ok, 0x48#8, args⟩ { s with vectors := s.vectors.set p n }) ∧
      NotifyLineTied n ∧ n.enable = (s.vectors.get p).enable ∧ n.functionMask = (s.vectors.get p).functionMask ∧
      n.classMap = classMap ∧
      ∀ v, (n.vecs.get v).masked = masks.get v ∧ (n.vecs.get v).count = ((s.vectors.get p).vecs.get v).count ∧
        (n.vecs.get v).state =
          if ((s.vectors.get p).vecs.get v).masked = masks.get v then ((s.vectors.get p).vecs.get v).state
          else match ((s.vectors.get p).vecs.get v).state with
            | .idle => .idle
            | .active => if masks.get v = true then .pending else .active
            | .pending =>
              if masks.get v = false ∧ (s.vectors.get p).functionMask = false then .active else .pending) ∧
    (∀ v : Byte, 8 ≤ v.toNat → exec (.vectorAck p [v]) s = .next (answer p ⟨.badArgument, 0x49#8, []⟩ s)) ∧
    (∀ enable mask : Byte, 2 ≤ enable.toNat ∨ 2 ≤ mask.toNat →
      exec (.notifyControl p [enable, mask]) s = .next (answer p ⟨.badArgument, 0x4A#8, []⟩ s)) ∧
    (∀ args : List Byte, args.length = 14 →
      (∃ k, k < 8 ∧ 2 ≤ fld args k 1) ∨ (∃ k, 8 ≤ k ∧ k < 14 ∧ 8 ≤ fld args k 1) →
      exec (.vectorConfigure p args) s = .next (answer p ⟨.badArgument, 0x48#8, []⟩ s)) ∧
    exec (.vectorRead p []) s = .next (answer p ⟨.ok, 0x4B#8,
      (allVecs.flatMap fun v => [b1 ((s.vectors.get p).vecs.get v).state.code, b1 ((s.vectors.get p).vecs.get v).count,
          bBool ((s.vectors.get p).vecs.get v).masked]) ++
        ([0, 1, 2, 3, 4, 5] : List (Fin 6)).map (fun c => b1 ((s.vectors.get p).classMap.get c).val) ++
        [bBool (s.vectors.get p).enable, bBool (s.vectors.get p).functionMask, bBool (s.vectors.get p).notifynLow]⟩ s)

/-- Every step keeps the ties of R138 in every port, and FAULTn and the four NOTIFYn lines as R159 and R143 say. -/
def Obligations.EveryStepKeepsTheLinesAndVectors : Prop :=
  ∀ s t : State, FaultLineTied s → VectorsTied s → step s = .next t → FaultLineTied t ∧ VectorsTied t

/-! ## Fault log -/

/-- One occurrence, in the order of R158: the count (R154), the capture record or the overflow flag (R155), FAULTn (R159), the FAULT
records and raises at a count that leaves 0 (R156), and the hold notice (R157). A masked kind is only counted. That notices handed
and not yet taken are a count is read from R54 and R157 by inference (notes/assumptions/16.md). -/
def Obligations.OccurrenceIsCountedAndReported : Prop :=
  ∀ (k : FaultKind) (port : Option Port) (ctx : FaultContext) (s t : State) (drops : List Port) (c : FaultCell),
    s.faults.cells.get k.idx = c → occurOne k port ctx s = (t, drops) →
    t.faults.cells.get k.idx = { c with count := bumped c.count } ∧
    (∀ j, j ≠ k.idx → t.faults.cells.get j = s.faults.cells.get j) ∧ t.faults.safeOnMajor = s.faults.safeOnMajor ∧
    (c.masked = true → t = { s with faults := { s.faults with cells := t.faults.cells } } ∧ drops = []) ∧
    (c.masked = false →
      LogOnly s t ∧ FaultLineTied t ∧
      (s.faults.capture = none →
        t.faults.capture = some ⟨k, s.time.ht, s.time.epoch, port, ctx⟩ ∧ t.faults.overflow = s.faults.overflow) ∧
      (s.faults.capture ≠ none → t.faults.capture = s.faults.capture ∧ t.faults.overflow = true) ∧
      t.sched.holdNotices = s.sched.holdNotices +
        (if c.severity = .major ∧ s.faults.safeOnMajor = true then 1 else 0) ∧
      (c.count ≠ 0 → t.rings = s.rings ∧ t.vectors = s.vectors ∧ drops = []) ∧
      (c.count = 0 → ∀ p : Port,
        ((s.rings.get p).selFault = false → t.rings.get p = s.rings.get p) ∧
        ((s.rings.get p).selFault = true → (s.rings.get p).records.length < 32 →
          (t.rings.get p).records = (s.rings.get p).records ++ [⟨.fault k c.severity, (s.rings.get p).pendingDrops, false,
            decide (s.disc.state = .locked), s.time.ht, s.time.epoch⟩]) ∧
        ((s.vectors.get p).enable = true →
          ((t.vectors.get p).vecs.get ((s.vectors.get p).classMap.get 4)).state ≠ .idle)))

/-- FAULT CLEAR subtracts the seen count, FAULT CONFIGURE replaces the policy, FAULT RECORD CLEAR releases the capture record, and
FAULTn is set anew by the first two; FAULT READ gives every byte of the log and changes nothing; a kind or a byte out of its range is
BAD_ARGUMENT (R159 to R161, R163, R164, R201, R203). That bits 15 to 11 of the two sets of kinds and bits 7 to 3 of the flags byte
of FAULT READ are 0 is the model's choice (notes/assumptions/30.md). -/
def Obligations.FaultRequestsClearAndConfigure : Prop :=
  ∀ (p : Port) (s : State), s.takesFrames p = true →
    (s.settings.holder = some p →
      (∀ (k : FaultKind) (seen : Nat), seen ≤ 255 →
        ∃ f : FaultLog, exec (.faultClear p [b1 k.idx.val, b1 seen]) s =
            .next (answer p ⟨.ok, 0x51#8, [b1 k.idx.val, b1 (countOf s k - seen)]⟩ { s with faults := f }) ∧
          FaultLineTied { s with faults := f } ∧
          f = { s.faults with
            cells := s.faults.cells.set k.idx { s.faults.cells.get k.idx with count := countOf s k - seen }
            faultnLow := f.faultnLow }) ∧
      (∀ (masks majors : Tab 11 Bool) (safe : Bool), ∃ (args : List Byte) (f : FaultLog),
        args = allKinds.map (fun k => bBool (masks.get k)) ++ allKinds.map (fun k => bBool (majors.get k)) ++ [bBool safe] ∧
        exec (.faultConfigure p args) s =
          .next (answer p ⟨.ok, 0x52#8, args ++ [bBool f.faultnLow]⟩ { s with faults := f }) ∧
        FaultLineTied { s with faults := f } ∧ f.capture = s.faults.capture ∧ f.overflow = s.faults.overflow ∧
        f.safeOnMajor = safe ∧
        ∀ k, f.cells.get k =
          ⟨(s.faults.cells.get k).count, masks.get k, if majors.get k = true then .major else .minor⟩) ∧
      (∃ record : List Byte, exec (.faultRecordClear p []) s =
          .next (answer p ⟨.ok, 0x53#8, record ++ [bBool s.faults.overflow]⟩
            { s with faults := { s.faults with capture := none, overflow := false } }) ∧
        record = captureLayout s.faults.capture) ∧
      (∀ a b : Byte, 11 ≤ a.toNat → exec (.faultClear p [a, b]) s = .next (answer p ⟨.badArgument, 0x51#8, []⟩ s)) ∧
      (∀ args : List Byte, args.length = 23 → (∃ b ∈ args, 2 ≤ b.toNat) →
        exec (.faultConfigure p args) s = .next (answer p ⟨.badArgument, 0x52#8, []⟩ s))) ∧
    (s.settings.holder ≠ some p →
      (∀ a b : Byte, exec (.faultClear p [a, b]) s = .next (answer p ⟨.notPermitted, 0x51#8, []⟩ s)) ∧
      (∀ args : List Byte, args.length = 23 →
        exec (.faultConfigure p args) s = .next (answer p ⟨.notPermitted, 0x52#8, []⟩ s)) ∧
      exec (.faultRecordClear p []) s = .next (answer p ⟨.notPermitted, 0x53#8, []⟩ s)) ∧
    ∃ (masks majors : Nat) (rest : List Byte), exec (.faultRead p []) s = .next (answer p ⟨.ok, 0x50#8,
        allKinds.map (fun k => b1 (s.faults.cells.get k).count) ++ rest⟩ s) ∧ rest.length = 25 ∧
      rest = beN 2 masks ++ beN 2 majors ++ captureLayout s.faults.capture ++
        [b1 ((if s.faults.overflow then 1 else 0) + (if s.faults.safeOnMajor then 2 else 0) +
          (if s.faults.faultnLow then 4 else 0))] ∧
      masks < 2 ^ 11 ∧ majors < 2 ^ 11 ∧ ∀ k : Fin 11, masks.testBit k.val = (s.faults.cells.get k).masked ∧
        majors.testBit k.val = decide ((s.faults.cells.get k).severity = .major)

/-! ## Settings store -/

/-- STORE WRITE and STORE FREEZE: the checks in order; a passing one takes a snapshot of the working settings, with the frozen flag
clear or set, and the store is WRITING for the requester (R178, R180). -/
def Obligations.StoreWriteTakesASnapshot : Prop :=
  ∀ (p : Port) (s : State) (freeze : Bool) (c : List Byte → Instr) (code : Byte), s.takesFrames p = true →
    (freeze = false ∧ c = (fun args => Instr.storeWrite p args) ∧ code = 0x64#8 ∨
      freeze = true ∧ c = (fun args => Instr.storeFreeze p args) ∧ code = 0x65#8) →
    (∀ args, args ≠ [] → exec (c args) s = .next (answer p ⟨.badArgument, code, []⟩ s)) ∧
    (s.settings.holder ≠ some p → exec (c []) s = .next (answer p ⟨.notPermitted, code, []⟩ s)) ∧
    (s.settings.holder = some p → s.settings.frozen = true →
      exec (c []) s = .next (answer p ⟨.frozen, code, []⟩ s)) ∧
    (s.settings.holder = some p → s.settings.frozen = false → s.settings.store.isWriting = true →
      exec (c []) s = .next (answer p ⟨.storeBusy, code, []⟩ s)) ∧
    (s.settings.holder = some p → s.settings.frozen = false → s.settings.store.isWriting = false →
      exec (c []) s = .next (answer p ⟨.ok, code, [2#8]⟩ { s with settings := { s.settings with
        store := .writing (imageOf { workingSettings s with frozen := freeze }) s.time.rt freeze
        requester := some p } }))

/-- STORE_COMPLETION from 8,000,000 ns of RT after the take on: the store state, the image, the frozen flag of a freeze, the
requester's STORE_DONE record and STORE raise, and STORE_WRITE_FAIL on failure (R178 to R180). That a completion comes at any RT
from there on, and that its outcome is an operand, are the model's choices (notes/assumptions/21.md). -/
def Obligations.StoreCompletionVerifiesTheImage : Prop :=
  ∀ (verified freeze : Bool) (snapshot : List Byte) (takenAt : Nat) (s : State),
    s.settings.store = .writing snapshot takenAt freeze → s.powered = true → takenAt + 8000000 ≤ s.time.rt →
    ∃ (t : State) (image : StoreImage), exec (.storeCompletion verified) s = .next t ∧
      LogOnly { s with settings := { s.settings with
        store := if verified then .valid else .invalid
        image := image
        frozen := s.settings.frozen || (freeze && verified)
        requester := none } } t ∧
      (verified = true → image = .bytes snapshot ∧ countOf t .storeWriteFail = countOf s .storeWriteFail) ∧
      (verified = false → image.settings = none ∧ countOf t .storeWriteFail = bumped (countOf s .storeWriteFail)) ∧
      (∀ p, s.settings.requester = some p → (s.rings.get p).records.length < 32 →
        Appended s t p ⟨.storeDone verified, 0, false, decide (s.disc.state = .locked), s.time.ht, s.time.epoch⟩) ∧
      (∀ p, s.settings.requester = some p → ClassRaised s t p .store) ∧
      (∀ p, s.settings.requester = some p → (s.rings.get p).records.length < 32 → verified = true →
        (∀ q, q ≠ p → t.rings.get q = s.rings.get q) ∧ t.faults = s.faults ∧
        t.vectors = (raiseClass p .store (if (s.rings.get p).records.length = (s.rings.get p).mark then
          raiseClass p .ringMark s else s)).vectors) ∧
      (s.settings.requester = none → verified = true → t.rings = s.rings ∧ t.vectors = s.vectors)

/-! ## Ports and leases -/

/-- LEASE SET and LEASE RENEW start the lease, or set NONE with a period of 0; a period out of range is refused (R191, R192). -/
def Obligations.LeaseRequestsStartTheLease : Prop :=
  ∀ (p : Port) (s : State), s.takesFrames p = true →
    (∀ ms : Nat, ms = 0 ∨ 10 ≤ ms ∧ ms ≤ 60000 →
      exec (.leaseSet p (beN 2 ms)) s = .next (answer p ⟨.ok, 0x04#8,
        [if ms = 0 then 0#8 else 1#8] ++ beN 2 ms ++ beN 8 (ms * 1000000)⟩
        { s with ports := s.ports.upd p fun q => { q with
          leasePeriodMs := ms, lease := if ms = 0 then .none else .running (s.time.rt + ms * 1000000) } })) ∧
    (∀ ms : Nat, 1 ≤ ms ∧ ms ≤ 9 ∨ 60001 ≤ ms ∧ ms ≤ 65535 →
      exec (.leaseSet p (beN 2 ms)) s = .next (answer p ⟨.badArgument, 0x04#8, []⟩ s)) ∧
    (∀ ms : Nat, (s.ports.get p).leasePeriodMs = ms →
      exec (.leaseRenew p []) s = .next (answer p ⟨.ok, 0x05#8,
        [if ms = 0 then 0#8 else 1#8] ++ beN 2 ms ++ beN 8 (ms * 1000000)⟩
        { s with ports := s.ports.upd p fun q => { q with
          lease := if ms = 0 then .none else .running (s.time.rt + ms * 1000000) } })) ∧
    (∀ args : List Byte, args.length ≠ 2 →
      exec (.leaseSet p args) s = .next (answer p ⟨.badArgument, 0x04#8, []⟩ s)) ∧
    ∀ args : List Byte, args ≠ [] → exec (.leaseRenew p args) s = .next (answer p ⟨.badArgument, 0x05#8, []⟩ s)

/-- LEASE_EXPIRY at the expiry point: every pin claim and the settings claim of the port are lost, its entries on those pins are
purged, those pins go to their safe levels, with contention checks where that is a change (R81, R87), LEASE_EXPIRED is recorded and
the lease is EXPIRED; what R193 leaves in place stays. A ring with room takes the CANCELLED records of each pin and its CLAIM_LOST
record, pin after pin, and then CLAIM_LOST for the settings claim; the CLAIM class is raised (R67, R81, R129, R193). That an expiry
before its point leaves the state is the model's choice (notes/assumptions/2.md). -/
def Obligations.LeaseExpiryTearsDownTheClaims : Prop :=
  ∀ (p : Port) (point : Nat) (s : State), s.powered = true → (s.ports.get p).lease = .running point →
    (s.time.rt < point → exec (.leaseExpiry p) s = .next s) ∧
    (point ≤ s.time.rt → ∃ t u, exec (.leaseExpiry p) s = .next t ∧
      t = { u with ports := s.ports.set p { s.ports.get p with lease := .expired } } ∧
      FireOnly { s with settings := { s.settings with
        holder := if s.settings.holder = some p then none else s.settings.holder } } u ∧
      (∀ k, (s.pins.get k).holder = some p →
        t.pins.get k = drivenCell s.time.rt (s.pins.get k).map.safe { s.pins.get k with holder := none }) ∧
      (∀ k, (s.pins.get k).holder ≠ some p → t.pins.get k = s.pins.get k) ∧
      t.sched.armed = s.sched.armed.filter (fun a =>
        !(allPins.any fun k => s.holdsPin p k && a.entry.drives p k)) ∧
      t.sched.waiting = s.sched.waiting.filter (fun e => !(allPins.any fun k => s.holdsPin p k && e.drives p k)) ∧
      countOf t .leaseExpired = bumped (countOf s .leaseExpired) ∧ ClassRaised s t p .claim ∧
      ((s.rings.get p).records.length + (leaseRecords p s).length ≤ 32 → PostedAll s t p (leaseRecords p s)))

/-- PORT RESET and the fall of PRSTn reset the port's share of the hub and nothing else, its pins' safe drives with their contention
checks (R87, R89) among it; the rise of PRSTn ends the hold, and a frame
begun before the rise is not received (R195 to R197). That the rise is told whether such a frame is in progress, and that a rise of
a line that is high leaves the state, are the model's choices (notes/assumptions/1.md, 2.md). -/
def Obligations.PortResetClearsThePortsShare : Prop :=
  ∀ (p : Port) (s : State),
    (s.takesFrames p = true → ∃ t, exec (.portReset p []) s = .next t ∧ AtPortReset p s t ∧
      (t.ports.get p).prstnLow = (s.ports.get p).prstnLow) ∧
    (s.takesFrames p = true → ∀ args, args ≠ [] →
      exec (.portReset p args) s = .next (answer p ⟨.badArgument, 0x03#8, []⟩ s)) ∧
    (s.powered = true → (s.ports.get p).prstnLow = false → ∃ t, exec (.prstnFall p) s = .next t ∧ AtPortReset p s t ∧
      (t.ports.get p).prstnLow = true) ∧
    ∀ begun : Bool,
      ((s.ports.get p).prstnLow = true → ∃ q, exec (.prstnRise ⟨p, begun⟩) s = .next { s with ports := s.ports.set p q } ∧
        q = { s.ports.get p with
          prstnLow := false
          receiver := .idle
          missed := begun && s.powered && !s.resetnLow && decide (s.load = none) }) ∧
      ((s.ports.get p).prstnLow = false → exec (.prstnRise ⟨p, begun⟩) s = .next s)

/-- HUB RESET by the settings holder, and the fall of RESETn, give every block its hub reset values; HUB RESET's checks in order; the
rise of RESETn ends the hold; after a reset by request the load is owed at once, before any advance, and after one by the line it
follows the rise (R198, R199). That an owed load is a command of its own, which `quiet` asks for before the next ADVANCE, is the
model's choice (notes/assumptions/4.md). -/
def Obligations.HubResetGivesResetValues : Prop :=
  ∀ (p : Port) (s : State),
    (s.takesFrames p = true →
      (∀ args, args ≠ [] → exec (.hubReset p args) s = .next (answer p ⟨.badArgument, 0x66#8, []⟩ s)) ∧
      (s.settings.holder ≠ some p → exec (.hubReset p []) s = .next (answer p ⟨.notPermitted, 0x66#8, []⟩ s)) ∧
      (s.settings.holder = some p → s.settings.store.isWriting = true →
        exec (.hubReset p []) s = .next (answer p ⟨.storeBusy, 0x66#8, []⟩ s)) ∧
      (s.settings.holder = some p → s.settings.store.isWriting = false →
        ∃ t, exec (.hubReset p []) s = .next t ∧ AtHubReset s t ∧ t.resetnLow = s.resetnLow ∧
          t.load = some (.hubReset true) ∧ quiet t = false)) ∧
    (s.powered = true → s.resetnLow = false →
      ∃ t, exec .resetnFall s = .next t ∧ AtHubReset s t ∧ t.resetnLow = true ∧
        (s.load ≠ some .powerOn → t.load = some (.hubReset false))) ∧
    exec .resetnRise s = .next { s with resetnLow := false }

/-- Every step keeps a port whose lease is EXPIRED without pin claims and without the settings claim, and the lease state NONE
exactly while the period is 0 (R172, R191, R193). Every step also keeps every receiver idle between commands, with a frame missed
only on a port that could otherwise begin one: that a frame is one whole command, after which its receiver is idle, and that `missed`
tells of a frame begun too early, is the model's choice (notes/assumptions/1.md). -/
def Obligations.EveryStepKeepsLeasesAndReceivers : Prop :=
  (∀ s t : State, LeasesTied s → step s = .next t → LeasesTied t) ∧
    ∀ s t : State, ReceiversTied s → step s = .next t → ReceiversTied t
end

