-- ==== Sys2Proof/Laws/Bytes.lean ====
section
/-! SUPPORT. The laws of multi-byte values (R201): `beN` writes what `be` reads, and a field of an argument list is the field of the
part of the list in which it lies. -/

namespace Sys2Proof.Machine

@[simp] theorem length_beN (k n : Nat) : (beN k n).length = k := by
  induction k generalizing n with
  | zero => rfl
  | succ k ih => simp [beN, ih]

@[simp] theorem length_beInt (k : Nat) (i : Int) : (beInt k i).length = k := length_beN k _

theorem be_nil : be [] = 0 := rfl

theorem be_snoc (bs : List Byte) (b : Byte) : be (bs ++ [b]) = be bs * 256 + b.toNat := by
  simp [be]

@[simp] theorem be_singleton (b : Byte) : be [b] = b.toNat := by
  simp [be]

/-- Bytes written and read again are the value modulo 256^k. -/
theorem be_beN (k n : Nat) : be (beN k n) = n % 256 ^ k := by
  induction k generalizing n with
  | zero => simp [beN, be_nil, Nat.mod_one]
  | succ k ih =>
    simp only [beN, be_snoc, ih, BitVec.toNat_ofNat]
    rw [show (256 : Nat) ^ (k + 1) = 256 * 256 ^ k by ring, Nat.mod_mul]
    simp
    ring

theorem be_beN_of_lt {k n : Nat} (h : n < 256 ^ k) : be (beN k n) = n := by
  rw [be_beN, Nat.mod_eq_of_lt h]

/-- A value and its residue give the same bytes. -/
theorem beN_mod (k n : Nat) : beN k (n % 256 ^ k) = beN k n := by
  induction k generalizing n with
  | zero => rfl
  | succ k ih =>
    have h1 : n % 256 ^ (k + 1) / 256 = n / 256 % 256 ^ k := by
      rw [show (256 : Nat) ^ (k + 1) = 256 * 256 ^ k by ring, Nat.mod_mul_right_div_self]
    have h2 : BitVec.ofNat 8 (n % 256 ^ (k + 1)) = BitVec.ofNat 8 n := by
      apply BitVec.eq_of_toNat_eq
      simp only [BitVec.toNat_ofNat]
      exact Nat.mod_mod_of_dvd n (by rw [show (256 : Nat) ^ (k + 1) = 2 ^ 8 * 256 ^ k by ring]; exact Dvd.intro _ rfl)
    simp only [beN, h1, h2, ih]

@[simp] theorem toNat_b1 (n : Nat) : (b1 n).toNat = n % 256 := by simp [b1]

@[simp] theorem b1_toNat (b : Byte) : b1 b.toNat = b := by simp [b1]

/-- A field that lies in the first part of a list. -/
theorem fld_append_left {xs ys : List Byte} {off len : Nat} (h : off + len ≤ xs.length) :
    fld (xs ++ ys) off len = fld xs off len := by
  unfold fld
  rw [List.drop_append_of_le_length (by omega), List.take_append_of_le_length (by simp; omega)]

/-- A field that lies behind the first part of a list. -/
theorem fld_append_right {xs ys : List Byte} {off len : Nat} (h : xs.length ≤ off) :
    fld (xs ++ ys) off len = fld ys (off - xs.length) len := by
  unfold fld
  rw [List.drop_append, List.drop_eq_nil_of_le h, List.nil_append]

/-- A field that is a whole list. -/
theorem fld_whole (xs : List Byte) : fld xs 0 xs.length = be xs := by
  simp [fld]

theorem fld_whole' {xs : List Byte} {n : Nat} (h : xs.length = n) : fld xs 0 n = be xs := by
  rw [← h, fld_whole]

@[simp] theorem fld_cons_zero (b : Byte) (bs : List Byte) : fld (b :: bs) 0 1 = b.toNat := by
  simp [fld]

@[simp] theorem fld_cons_succ (b : Byte) (bs : List Byte) (off len : Nat) :
    fld (b :: bs) (off + 1) len = fld bs off len := by
  simp [fld]

@[simp] theorem fld_beN (k n : Nat) : fld (beN k n) 0 k = n % 256 ^ k := by
  rw [fld_whole' (length_beN k n), be_beN]

end Sys2Proof.Machine
end

