-- ==== Sys2Proof/Laws/State.lean ====
section
/-! SUPPORT. One lemma per field that an update of State leaves alone, and one per field that it sets where the new value has a
short form: true by rfl, for simp, so that no proof unfolds a record update. -/

namespace Sys2Proof.Machine

/-! ## answer -/

@[simp] theorem answer_powered (p : Port) (r : Result) (s : State) : (answer p r s).powered = s.powered := rfl

@[simp] theorem answer_resetnLow (p : Port) (r : Result) (s : State) : (answer p r s).resetnLow = s.resetnLow := rfl

@[simp] theorem answer_load (p : Port) (r : Result) (s : State) : (answer p r s).load = s.load := rfl

@[simp] theorem answer_time (p : Port) (r : Result) (s : State) : (answer p r s).time = s.time := rfl

@[simp] theorem answer_disc (p : Port) (r : Result) (s : State) : (answer p r s).disc = s.disc := rfl

@[simp] theorem answer_sched (p : Port) (r : Result) (s : State) : (answer p r s).sched = s.sched := rfl

@[simp] theorem answer_pins (p : Port) (r : Result) (s : State) : (answer p r s).pins = s.pins := rfl

@[simp] theorem answer_watch (p : Port) (r : Result) (s : State) : (answer p r s).watch = s.watch := rfl

@[simp] theorem answer_subs (p : Port) (r : Result) (s : State) : (answer p r s).subs = s.subs := rfl

@[simp] theorem answer_rings (p : Port) (r : Result) (s : State) : (answer p r s).rings = s.rings := rfl

@[simp] theorem answer_vectors (p : Port) (r : Result) (s : State) : (answer p r s).vectors = s.vectors := rfl

@[simp] theorem answer_faults (p : Port) (r : Result) (s : State) : (answer p r s).faults = s.faults := rfl

@[simp] theorem answer_settings (p : Port) (r : Result) (s : State) : (answer p r s).settings = s.settings := rfl

@[simp] theorem answer_ports (p : Port) (r : Result) (s : State) :
    (answer p r s).ports = s.ports.upd p fun q => { q with receiver := .idle, sdo := [], result := r } := rfl

@[simp] theorem answer_choices (p : Port) (r : Result) (s : State) : (answer p r s).choices = s.choices := rfl

@[simp] theorem answer_pending (p : Port) (r : Result) (s : State) : (answer p r s).pending = s.pending := rfl

/-! ## raiseVec -/

@[simp] theorem raiseVec_powered (p : Port) (v : VecNo) (s : State) : (raiseVec p v s).powered = s.powered := rfl

@[simp] theorem raiseVec_resetnLow (p : Port) (v : VecNo) (s : State) : (raiseVec p v s).resetnLow = s.resetnLow := rfl

@[simp] theorem raiseVec_load (p : Port) (v : VecNo) (s : State) : (raiseVec p v s).load = s.load := rfl

@[simp] theorem raiseVec_time (p : Port) (v : VecNo) (s : State) : (raiseVec p v s).time = s.time := rfl

@[simp] theorem raiseVec_disc (p : Port) (v : VecNo) (s : State) : (raiseVec p v s).disc = s.disc := rfl

@[simp] theorem raiseVec_sched (p : Port) (v : VecNo) (s : State) : (raiseVec p v s).sched = s.sched := rfl

@[simp] theorem raiseVec_pins (p : Port) (v : VecNo) (s : State) : (raiseVec p v s).pins = s.pins := rfl

@[simp] theorem raiseVec_watch (p : Port) (v : VecNo) (s : State) : (raiseVec p v s).watch = s.watch := rfl

@[simp] theorem raiseVec_subs (p : Port) (v : VecNo) (s : State) : (raiseVec p v s).subs = s.subs := rfl

@[simp] theorem raiseVec_rings (p : Port) (v : VecNo) (s : State) : (raiseVec p v s).rings = s.rings := rfl

@[simp] theorem raiseVec_vectors (p : Port) (v : VecNo) (s : State) :
    (raiseVec p v s).vectors = s.vectors.upd p (NotifyUnit.raise v) := rfl

@[simp] theorem raiseVec_faults (p : Port) (v : VecNo) (s : State) : (raiseVec p v s).faults = s.faults := rfl

@[simp] theorem raiseVec_settings (p : Port) (v : VecNo) (s : State) : (raiseVec p v s).settings = s.settings := rfl

@[simp] theorem raiseVec_ports (p : Port) (v : VecNo) (s : State) : (raiseVec p v s).ports = s.ports := rfl

@[simp] theorem raiseVec_choices (p : Port) (v : VecNo) (s : State) : (raiseVec p v s).choices = s.choices := rfl

@[simp] theorem raiseVec_pending (p : Port) (v : VecNo) (s : State) : (raiseVec p v s).pending = s.pending := rfl

/-! ## raiseClass -/

@[simp] theorem raiseClass_powered (p : Port) (c : RaiseClass) (s : State) : (raiseClass p c s).powered = s.powered := rfl

@[simp] theorem raiseClass_resetnLow (p : Port) (c : RaiseClass) (s : State) : (raiseClass p c s).resetnLow = s.resetnLow := rfl

@[simp] theorem raiseClass_load (p : Port) (c : RaiseClass) (s : State) : (raiseClass p c s).load = s.load := rfl

@[simp] theorem raiseClass_time (p : Port) (c : RaiseClass) (s : State) : (raiseClass p c s).time = s.time := rfl

@[simp] theorem raiseClass_disc (p : Port) (c : RaiseClass) (s : State) : (raiseClass p c s).disc = s.disc := rfl

@[simp] theorem raiseClass_sched (p : Port) (c : RaiseClass) (s : State) : (raiseClass p c s).sched = s.sched := rfl

@[simp] theorem raiseClass_pins (p : Port) (c : RaiseClass) (s : State) : (raiseClass p c s).pins = s.pins := rfl

@[simp] theorem raiseClass_watch (p : Port) (c : RaiseClass) (s : State) : (raiseClass p c s).watch = s.watch := rfl

@[simp] theorem raiseClass_subs (p : Port) (c : RaiseClass) (s : State) : (raiseClass p c s).subs = s.subs := rfl

@[simp] theorem raiseClass_rings (p : Port) (c : RaiseClass) (s : State) : (raiseClass p c s).rings = s.rings := rfl

@[simp] theorem raiseClass_faults (p : Port) (c : RaiseClass) (s : State) : (raiseClass p c s).faults = s.faults := rfl

@[simp] theorem raiseClass_settings (p : Port) (c : RaiseClass) (s : State) : (raiseClass p c s).settings = s.settings := rfl

@[simp] theorem raiseClass_ports (p : Port) (c : RaiseClass) (s : State) : (raiseClass p c s).ports = s.ports := rfl

@[simp] theorem raiseClass_choices (p : Port) (c : RaiseClass) (s : State) : (raiseClass p c s).choices = s.choices := rfl

@[simp] theorem raiseClass_pending (p : Port) (c : RaiseClass) (s : State) : (raiseClass p c s).pending = s.pending := rfl

/-! ## bumpCount -/

@[simp] theorem bumpCount_powered (k : FaultKind) (s : State) : (bumpCount k s).powered = s.powered := rfl

@[simp] theorem bumpCount_resetnLow (k : FaultKind) (s : State) : (bumpCount k s).resetnLow = s.resetnLow := rfl

@[simp] theorem bumpCount_load (k : FaultKind) (s : State) : (bumpCount k s).load = s.load := rfl

@[simp] theorem bumpCount_time (k : FaultKind) (s : State) : (bumpCount k s).time = s.time := rfl

@[simp] theorem bumpCount_disc (k : FaultKind) (s : State) : (bumpCount k s).disc = s.disc := rfl

@[simp] theorem bumpCount_sched (k : FaultKind) (s : State) : (bumpCount k s).sched = s.sched := rfl

@[simp] theorem bumpCount_pins (k : FaultKind) (s : State) : (bumpCount k s).pins = s.pins := rfl

@[simp] theorem bumpCount_watch (k : FaultKind) (s : State) : (bumpCount k s).watch = s.watch := rfl

@[simp] theorem bumpCount_subs (k : FaultKind) (s : State) : (bumpCount k s).subs = s.subs := rfl

@[simp] theorem bumpCount_rings (k : FaultKind) (s : State) : (bumpCount k s).rings = s.rings := rfl

@[simp] theorem bumpCount_vectors (k : FaultKind) (s : State) : (bumpCount k s).vectors = s.vectors := rfl

@[simp] theorem bumpCount_settings (k : FaultKind) (s : State) : (bumpCount k s).settings = s.settings := rfl

@[simp] theorem bumpCount_ports (k : FaultKind) (s : State) : (bumpCount k s).ports = s.ports := rfl

@[simp] theorem bumpCount_choices (k : FaultKind) (s : State) : (bumpCount k s).choices = s.choices := rfl

@[simp] theorem bumpCount_pending (k : FaultKind) (s : State) : (bumpCount k s).pending = s.pending := rfl

/-! ## setFaultn -/

@[simp] theorem setFaultn_powered (s : State) : (setFaultn s).powered = s.powered := rfl

@[simp] theorem setFaultn_resetnLow (s : State) : (setFaultn s).resetnLow = s.resetnLow := rfl

@[simp] theorem setFaultn_load (s : State) : (setFaultn s).load = s.load := rfl

@[simp] theorem setFaultn_time (s : State) : (setFaultn s).time = s.time := rfl

@[simp] theorem setFaultn_disc (s : State) : (setFaultn s).disc = s.disc := rfl

@[simp] theorem setFaultn_sched (s : State) : (setFaultn s).sched = s.sched := rfl

@[simp] theorem setFaultn_pins (s : State) : (setFaultn s).pins = s.pins := rfl

@[simp] theorem setFaultn_watch (s : State) : (setFaultn s).watch = s.watch := rfl

@[simp] theorem setFaultn_subs (s : State) : (setFaultn s).subs = s.subs := rfl

@[simp] theorem setFaultn_rings (s : State) : (setFaultn s).rings = s.rings := rfl

@[simp] theorem setFaultn_vectors (s : State) : (setFaultn s).vectors = s.vectors := rfl

@[simp] theorem setFaultn_faults (s : State) :
    (setFaultn s).faults = s.faults.setLine := rfl

@[simp] theorem setFaultn_settings (s : State) : (setFaultn s).settings = s.settings := rfl

@[simp] theorem setFaultn_ports (s : State) : (setFaultn s).ports = s.ports := rfl

@[simp] theorem setFaultn_choices (s : State) : (setFaultn s).choices = s.choices := rfl

@[simp] theorem setFaultn_pending (s : State) : (setFaultn s).pending = s.pending := rfl

/-! ## handHoldNotice -/

@[simp] theorem handHoldNotice_powered (s : State) : (handHoldNotice s).powered = s.powered := rfl

@[simp] theorem handHoldNotice_resetnLow (s : State) : (handHoldNotice s).resetnLow = s.resetnLow := rfl

@[simp] theorem handHoldNotice_load (s : State) : (handHoldNotice s).load = s.load := rfl

@[simp] theorem handHoldNotice_time (s : State) : (handHoldNotice s).time = s.time := rfl

@[simp] theorem handHoldNotice_disc (s : State) : (handHoldNotice s).disc = s.disc := rfl

@[simp] theorem handHoldNotice_sched (s : State) :
    (handHoldNotice s).sched = { s.sched with holdNotices := s.sched.holdNotices + 1 } := rfl

@[simp] theorem handHoldNotice_pins (s : State) : (handHoldNotice s).pins = s.pins := rfl

@[simp] theorem handHoldNotice_watch (s : State) : (handHoldNotice s).watch = s.watch := rfl

@[simp] theorem handHoldNotice_subs (s : State) : (handHoldNotice s).subs = s.subs := rfl

@[simp] theorem handHoldNotice_rings (s : State) : (handHoldNotice s).rings = s.rings := rfl

@[simp] theorem handHoldNotice_vectors (s : State) : (handHoldNotice s).vectors = s.vectors := rfl

@[simp] theorem handHoldNotice_faults (s : State) : (handHoldNotice s).faults = s.faults := rfl

@[simp] theorem handHoldNotice_settings (s : State) : (handHoldNotice s).settings = s.settings := rfl

@[simp] theorem handHoldNotice_ports (s : State) : (handHoldNotice s).ports = s.ports := rfl

@[simp] theorem handHoldNotice_choices (s : State) : (handHoldNotice s).choices = s.choices := rfl

@[simp] theorem handHoldNotice_pending (s : State) : (handHoldNotice s).pending = s.pending := rfl

/-! ## levelDrive -/

@[simp] theorem levelDrive_powered (pin : Pin) (level : Level) (s : State) : (levelDrive pin level s).powered = s.powered := rfl

@[simp] theorem levelDrive_resetnLow (pin : Pin) (level : Level) (s : State) : (levelDrive pin level s).resetnLow = s.resetnLow := rfl

@[simp] theorem levelDrive_load (pin : Pin) (level : Level) (s : State) : (levelDrive pin level s).load = s.load := rfl

@[simp] theorem levelDrive_time (pin : Pin) (level : Level) (s : State) : (levelDrive pin level s).time = s.time := rfl

@[simp] theorem levelDrive_disc (pin : Pin) (level : Level) (s : State) : (levelDrive pin level s).disc = s.disc := rfl

@[simp] theorem levelDrive_sched (pin : Pin) (level : Level) (s : State) : (levelDrive pin level s).sched = s.sched := rfl

@[simp] theorem levelDrive_pins (pin : Pin) (level : Level) (s : State) :
    (levelDrive pin level s).pins = s.pins.upd pin (PinCell.drive s.time.rt level) := rfl

@[simp] theorem levelDrive_watch (pin : Pin) (level : Level) (s : State) : (levelDrive pin level s).watch = s.watch := rfl

@[simp] theorem levelDrive_subs (pin : Pin) (level : Level) (s : State) : (levelDrive pin level s).subs = s.subs := rfl

@[simp] theorem levelDrive_rings (pin : Pin) (level : Level) (s : State) : (levelDrive pin level s).rings = s.rings := rfl

@[simp] theorem levelDrive_vectors (pin : Pin) (level : Level) (s : State) : (levelDrive pin level s).vectors = s.vectors := rfl

@[simp] theorem levelDrive_faults (pin : Pin) (level : Level) (s : State) : (levelDrive pin level s).faults = s.faults := rfl

@[simp] theorem levelDrive_settings (pin : Pin) (level : Level) (s : State) : (levelDrive pin level s).settings = s.settings := rfl

@[simp] theorem levelDrive_ports (pin : Pin) (level : Level) (s : State) : (levelDrive pin level s).ports = s.ports := rfl

@[simp] theorem levelDrive_choices (pin : Pin) (level : Level) (s : State) : (levelDrive pin level s).choices = s.choices := rfl

@[simp] theorem levelDrive_pending (pin : Pin) (level : Level) (s : State) : (levelDrive pin level s).pending = s.pending := rfl

/-! ## safeDrive -/

@[simp] theorem safeDrive_powered (pin : Pin) (s : State) : (safeDrive pin s).powered = s.powered := rfl

@[simp] theorem safeDrive_resetnLow (pin : Pin) (s : State) : (safeDrive pin s).resetnLow = s.resetnLow := rfl

@[simp] theorem safeDrive_load (pin : Pin) (s : State) : (safeDrive pin s).load = s.load := rfl

@[simp] theorem safeDrive_time (pin : Pin) (s : State) : (safeDrive pin s).time = s.time := rfl

@[simp] theorem safeDrive_disc (pin : Pin) (s : State) : (safeDrive pin s).disc = s.disc := rfl

@[simp] theorem safeDrive_sched (pin : Pin) (s : State) : (safeDrive pin s).sched = s.sched := rfl

@[simp] theorem safeDrive_pins (pin : Pin) (s : State) :
    (safeDrive pin s).pins = s.pins.upd pin (PinCell.driveSafe s.time.rt) := rfl

@[simp] theorem safeDrive_watch (pin : Pin) (s : State) : (safeDrive pin s).watch = s.watch := rfl

@[simp] theorem safeDrive_subs (pin : Pin) (s : State) : (safeDrive pin s).subs = s.subs := rfl

@[simp] theorem safeDrive_rings (pin : Pin) (s : State) : (safeDrive pin s).rings = s.rings := rfl

@[simp] theorem safeDrive_vectors (pin : Pin) (s : State) : (safeDrive pin s).vectors = s.vectors := rfl

@[simp] theorem safeDrive_faults (pin : Pin) (s : State) : (safeDrive pin s).faults = s.faults := rfl

@[simp] theorem safeDrive_settings (pin : Pin) (s : State) : (safeDrive pin s).settings = s.settings := rfl

@[simp] theorem safeDrive_ports (pin : Pin) (s : State) : (safeDrive pin s).ports = s.ports := rfl

@[simp] theorem safeDrive_choices (pin : Pin) (s : State) : (safeDrive pin s).choices = s.choices := rfl

@[simp] theorem safeDrive_pending (pin : Pin) (s : State) : (safeDrive pin s).pending = s.pending := rfl

/-! ## safeDriveAll -/

@[simp] theorem safeDriveAll_powered (s : State) : (safeDriveAll s).powered = s.powered := rfl

@[simp] theorem safeDriveAll_resetnLow (s : State) : (safeDriveAll s).resetnLow = s.resetnLow := rfl

@[simp] theorem safeDriveAll_load (s : State) : (safeDriveAll s).load = s.load := rfl

@[simp] theorem safeDriveAll_time (s : State) : (safeDriveAll s).time = s.time := rfl

@[simp] theorem safeDriveAll_disc (s : State) : (safeDriveAll s).disc = s.disc := rfl

@[simp] theorem safeDriveAll_sched (s : State) : (safeDriveAll s).sched = s.sched := rfl

@[simp] theorem safeDriveAll_pins (s : State) :
    (safeDriveAll s).pins = s.pins.map (PinCell.driveSafe s.time.rt) := rfl

@[simp] theorem safeDriveAll_watch (s : State) : (safeDriveAll s).watch = s.watch := rfl

@[simp] theorem safeDriveAll_subs (s : State) : (safeDriveAll s).subs = s.subs := rfl

@[simp] theorem safeDriveAll_rings (s : State) : (safeDriveAll s).rings = s.rings := rfl

@[simp] theorem safeDriveAll_vectors (s : State) : (safeDriveAll s).vectors = s.vectors := rfl

@[simp] theorem safeDriveAll_faults (s : State) : (safeDriveAll s).faults = s.faults := rfl

@[simp] theorem safeDriveAll_settings (s : State) : (safeDriveAll s).settings = s.settings := rfl

@[simp] theorem safeDriveAll_ports (s : State) : (safeDriveAll s).ports = s.ports := rfl

@[simp] theorem safeDriveAll_choices (s : State) : (safeDriveAll s).choices = s.choices := rfl

@[simp] theorem safeDriveAll_pending (s : State) : (safeDriveAll s).pending = s.pending := rfl

/-! ## armEntry -/

@[simp] theorem armEntry_powered (a : Armed) (s : State) : (armEntry a s).powered = s.powered := rfl

@[simp] theorem armEntry_resetnLow (a : Armed) (s : State) : (armEntry a s).resetnLow = s.resetnLow := rfl

@[simp] theorem armEntry_load (a : Armed) (s : State) : (armEntry a s).load = s.load := rfl

@[simp] theorem armEntry_time (a : Armed) (s : State) : (armEntry a s).time = s.time := rfl

@[simp] theorem armEntry_disc (a : Armed) (s : State) : (armEntry a s).disc = s.disc := rfl

@[simp] theorem armEntry_sched (a : Armed) (s : State) :
    (armEntry a s).sched = { s.sched with armed := insertArmed a s.sched.armed } := rfl

@[simp] theorem armEntry_pins (a : Armed) (s : State) : (armEntry a s).pins = s.pins := rfl

@[simp] theorem armEntry_watch (a : Armed) (s : State) : (armEntry a s).watch = s.watch := rfl

@[simp] theorem armEntry_subs (a : Armed) (s : State) : (armEntry a s).subs = s.subs := rfl

@[simp] theorem armEntry_rings (a : Armed) (s : State) : (armEntry a s).rings = s.rings := rfl

@[simp] theorem armEntry_vectors (a : Armed) (s : State) : (armEntry a s).vectors = s.vectors := rfl

@[simp] theorem armEntry_faults (a : Armed) (s : State) : (armEntry a s).faults = s.faults := rfl

@[simp] theorem armEntry_settings (a : Armed) (s : State) : (armEntry a s).settings = s.settings := rfl

@[simp] theorem armEntry_ports (a : Armed) (s : State) : (armEntry a s).ports = s.ports := rfl

@[simp] theorem armEntry_choices (a : Armed) (s : State) : (armEntry a s).choices = s.choices := rfl

@[simp] theorem armEntry_pending (a : Armed) (s : State) : (armEntry a s).pending = s.pending := rfl

/-! ## waitEntry -/

@[simp] theorem waitEntry_powered (e : Entry) (s : State) : (waitEntry e s).powered = s.powered := rfl

@[simp] theorem waitEntry_resetnLow (e : Entry) (s : State) : (waitEntry e s).resetnLow = s.resetnLow := rfl

@[simp] theorem waitEntry_load (e : Entry) (s : State) : (waitEntry e s).load = s.load := rfl

@[simp] theorem waitEntry_time (e : Entry) (s : State) : (waitEntry e s).time = s.time := rfl

@[simp] theorem waitEntry_disc (e : Entry) (s : State) : (waitEntry e s).disc = s.disc := rfl

@[simp] theorem waitEntry_sched (e : Entry) (s : State) :
    (waitEntry e s).sched = { s.sched with waiting := s.sched.waiting ++ [e] } := rfl

@[simp] theorem waitEntry_pins (e : Entry) (s : State) : (waitEntry e s).pins = s.pins := rfl

@[simp] theorem waitEntry_watch (e : Entry) (s : State) : (waitEntry e s).watch = s.watch := rfl

@[simp] theorem waitEntry_subs (e : Entry) (s : State) : (waitEntry e s).subs = s.subs := rfl

@[simp] theorem waitEntry_rings (e : Entry) (s : State) : (waitEntry e s).rings = s.rings := rfl

@[simp] theorem waitEntry_vectors (e : Entry) (s : State) : (waitEntry e s).vectors = s.vectors := rfl

@[simp] theorem waitEntry_faults (e : Entry) (s : State) : (waitEntry e s).faults = s.faults := rfl

@[simp] theorem waitEntry_settings (e : Entry) (s : State) : (waitEntry e s).settings = s.settings := rfl

@[simp] theorem waitEntry_ports (e : Entry) (s : State) : (waitEntry e s).ports = s.ports := rfl

@[simp] theorem waitEntry_choices (e : Entry) (s : State) : (waitEntry e s).choices = s.choices := rfl

@[simp] theorem waitEntry_pending (e : Entry) (s : State) : (waitEntry e s).pending = s.pending := rfl

/-! ## removeEntriesOf -/

@[simp] theorem removeEntriesOf_powered (p : Port) (s : State) : (removeEntriesOf p s).powered = s.powered := rfl

@[simp] theorem removeEntriesOf_resetnLow (p : Port) (s : State) : (removeEntriesOf p s).resetnLow = s.resetnLow := rfl

@[simp] theorem removeEntriesOf_load (p : Port) (s : State) : (removeEntriesOf p s).load = s.load := rfl

@[simp] theorem removeEntriesOf_time (p : Port) (s : State) : (removeEntriesOf p s).time = s.time := rfl

@[simp] theorem removeEntriesOf_disc (p : Port) (s : State) : (removeEntriesOf p s).disc = s.disc := rfl

@[simp] theorem removeEntriesOf_pins (p : Port) (s : State) : (removeEntriesOf p s).pins = s.pins := rfl

@[simp] theorem removeEntriesOf_watch (p : Port) (s : State) : (removeEntriesOf p s).watch = s.watch := rfl

@[simp] theorem removeEntriesOf_subs (p : Port) (s : State) : (removeEntriesOf p s).subs = s.subs := rfl

@[simp] theorem removeEntriesOf_rings (p : Port) (s : State) : (removeEntriesOf p s).rings = s.rings := rfl

@[simp] theorem removeEntriesOf_vectors (p : Port) (s : State) : (removeEntriesOf p s).vectors = s.vectors := rfl

@[simp] theorem removeEntriesOf_faults (p : Port) (s : State) : (removeEntriesOf p s).faults = s.faults := rfl

@[simp] theorem removeEntriesOf_settings (p : Port) (s : State) : (removeEntriesOf p s).settings = s.settings := rfl

@[simp] theorem removeEntriesOf_ports (p : Port) (s : State) : (removeEntriesOf p s).ports = s.ports := rfl

@[simp] theorem removeEntriesOf_choices (p : Port) (s : State) : (removeEntriesOf p s).choices = s.choices := rfl

@[simp] theorem removeEntriesOf_pending (p : Port) (s : State) : (removeEntriesOf p s).pending = s.pending := rfl

/-! ## removeTag -/

@[simp] theorem removeTag_powered (p : Port) (tag : Byte) (s : State) : (removeTag p tag s).powered = s.powered := rfl

@[simp] theorem removeTag_resetnLow (p : Port) (tag : Byte) (s : State) : (removeTag p tag s).resetnLow = s.resetnLow := rfl

@[simp] theorem removeTag_load (p : Port) (tag : Byte) (s : State) : (removeTag p tag s).load = s.load := rfl

@[simp] theorem removeTag_time (p : Port) (tag : Byte) (s : State) : (removeTag p tag s).time = s.time := rfl

@[simp] theorem removeTag_disc (p : Port) (tag : Byte) (s : State) : (removeTag p tag s).disc = s.disc := rfl

@[simp] theorem removeTag_pins (p : Port) (tag : Byte) (s : State) : (removeTag p tag s).pins = s.pins := rfl

@[simp] theorem removeTag_watch (p : Port) (tag : Byte) (s : State) : (removeTag p tag s).watch = s.watch := rfl

@[simp] theorem removeTag_subs (p : Port) (tag : Byte) (s : State) : (removeTag p tag s).subs = s.subs := rfl

@[simp] theorem removeTag_rings (p : Port) (tag : Byte) (s : State) : (removeTag p tag s).rings = s.rings := rfl

@[simp] theorem removeTag_vectors (p : Port) (tag : Byte) (s : State) : (removeTag p tag s).vectors = s.vectors := rfl

@[simp] theorem removeTag_faults (p : Port) (tag : Byte) (s : State) : (removeTag p tag s).faults = s.faults := rfl

@[simp] theorem removeTag_settings (p : Port) (tag : Byte) (s : State) : (removeTag p tag s).settings = s.settings := rfl

@[simp] theorem removeTag_ports (p : Port) (tag : Byte) (s : State) : (removeTag p tag s).ports = s.ports := rfl

@[simp] theorem removeTag_choices (p : Port) (tag : Byte) (s : State) : (removeTag p tag s).choices = s.choices := rfl

@[simp] theorem removeTag_pending (p : Port) (tag : Byte) (s : State) : (removeTag p tag s).pending = s.pending := rfl

/-! ## markWindows -/

@[simp] theorem markWindows_powered (s : State) : (markWindows s).powered = s.powered := rfl

@[simp] theorem markWindows_resetnLow (s : State) : (markWindows s).resetnLow = s.resetnLow := rfl

@[simp] theorem markWindows_load (s : State) : (markWindows s).load = s.load := rfl

@[simp] theorem markWindows_time (s : State) : (markWindows s).time = s.time := rfl

@[simp] theorem markWindows_disc (s : State) : (markWindows s).disc = s.disc := rfl

@[simp] theorem markWindows_sched (s : State) : (markWindows s).sched = s.sched := rfl

@[simp] theorem markWindows_pins (s : State) : (markWindows s).pins = s.pins := rfl

@[simp] theorem markWindows_subs (s : State) : (markWindows s).subs = s.subs := rfl

@[simp] theorem markWindows_rings (s : State) : (markWindows s).rings = s.rings := rfl

@[simp] theorem markWindows_vectors (s : State) : (markWindows s).vectors = s.vectors := rfl

@[simp] theorem markWindows_faults (s : State) : (markWindows s).faults = s.faults := rfl

@[simp] theorem markWindows_settings (s : State) : (markWindows s).settings = s.settings := rfl

@[simp] theorem markWindows_ports (s : State) : (markWindows s).ports = s.ports := rfl

@[simp] theorem markWindows_choices (s : State) : (markWindows s).choices = s.choices := rfl

@[simp] theorem markWindows_pending (s : State) : (markWindows s).pending = s.pending := rfl

/-! ## setWatch -/

@[simp] theorem setWatch_powered (pin : Pin) (w : Watch) (s : State) : (setWatch pin w s).powered = s.powered := rfl

@[simp] theorem setWatch_resetnLow (pin : Pin) (w : Watch) (s : State) : (setWatch pin w s).resetnLow = s.resetnLow := rfl

@[simp] theorem setWatch_load (pin : Pin) (w : Watch) (s : State) : (setWatch pin w s).load = s.load := rfl

@[simp] theorem setWatch_time (pin : Pin) (w : Watch) (s : State) : (setWatch pin w s).time = s.time := rfl

@[simp] theorem setWatch_disc (pin : Pin) (w : Watch) (s : State) : (setWatch pin w s).disc = s.disc := rfl

@[simp] theorem setWatch_sched (pin : Pin) (w : Watch) (s : State) : (setWatch pin w s).sched = s.sched := rfl

@[simp] theorem setWatch_pins (pin : Pin) (w : Watch) (s : State) : (setWatch pin w s).pins = s.pins := rfl

@[simp] theorem setWatch_watch (pin : Pin) (w : Watch) (s : State) :
    (setWatch pin w s).watch = s.watch.set pin (some w) := rfl

@[simp] theorem setWatch_subs (pin : Pin) (w : Watch) (s : State) : (setWatch pin w s).subs = s.subs := rfl

@[simp] theorem setWatch_rings (pin : Pin) (w : Watch) (s : State) : (setWatch pin w s).rings = s.rings := rfl

@[simp] theorem setWatch_vectors (pin : Pin) (w : Watch) (s : State) : (setWatch pin w s).vectors = s.vectors := rfl

@[simp] theorem setWatch_faults (pin : Pin) (w : Watch) (s : State) : (setWatch pin w s).faults = s.faults := rfl

@[simp] theorem setWatch_settings (pin : Pin) (w : Watch) (s : State) : (setWatch pin w s).settings = s.settings := rfl

@[simp] theorem setWatch_ports (pin : Pin) (w : Watch) (s : State) : (setWatch pin w s).ports = s.ports := rfl

@[simp] theorem setWatch_choices (pin : Pin) (w : Watch) (s : State) : (setWatch pin w s).choices = s.choices := rfl

@[simp] theorem setWatch_pending (pin : Pin) (w : Watch) (s : State) : (setWatch pin w s).pending = s.pending := rfl

/-! ## acceptEdge -/

@[simp] theorem acceptEdge_powered (s : State) : (acceptEdge s).powered = s.powered := rfl

@[simp] theorem acceptEdge_resetnLow (s : State) : (acceptEdge s).resetnLow = s.resetnLow := rfl

@[simp] theorem acceptEdge_load (s : State) : (acceptEdge s).load = s.load := rfl

@[simp] theorem acceptEdge_time (s : State) : (acceptEdge s).time = s.time := rfl

@[simp] theorem acceptEdge_sched (s : State) : (acceptEdge s).sched = s.sched := rfl

@[simp] theorem acceptEdge_pins (s : State) : (acceptEdge s).pins = s.pins := rfl

@[simp] theorem acceptEdge_watch (s : State) : (acceptEdge s).watch = s.watch := rfl

@[simp] theorem acceptEdge_subs (s : State) : (acceptEdge s).subs = s.subs := rfl

@[simp] theorem acceptEdge_rings (s : State) : (acceptEdge s).rings = s.rings := rfl

@[simp] theorem acceptEdge_vectors (s : State) : (acceptEdge s).vectors = s.vectors := rfl

@[simp] theorem acceptEdge_faults (s : State) : (acceptEdge s).faults = s.faults := rfl

@[simp] theorem acceptEdge_settings (s : State) : (acceptEdge s).settings = s.settings := rfl

@[simp] theorem acceptEdge_ports (s : State) : (acceptEdge s).ports = s.ports := rfl

@[simp] theorem acceptEdge_choices (s : State) : (acceptEdge s).choices = s.choices := rfl

@[simp] theorem acceptEdge_pending (s : State) : (acceptEdge s).pending = s.pending := rfl

/-! ## emptyWindow -/

@[simp] theorem emptyWindow_powered (s : State) : (emptyWindow s).powered = s.powered := rfl

@[simp] theorem emptyWindow_resetnLow (s : State) : (emptyWindow s).resetnLow = s.resetnLow := rfl

@[simp] theorem emptyWindow_load (s : State) : (emptyWindow s).load = s.load := rfl

@[simp] theorem emptyWindow_time (s : State) : (emptyWindow s).time = s.time := rfl

@[simp] theorem emptyWindow_sched (s : State) : (emptyWindow s).sched = s.sched := rfl

@[simp] theorem emptyWindow_pins (s : State) : (emptyWindow s).pins = s.pins := rfl

@[simp] theorem emptyWindow_watch (s : State) : (emptyWindow s).watch = s.watch := rfl

@[simp] theorem emptyWindow_subs (s : State) : (emptyWindow s).subs = s.subs := rfl

@[simp] theorem emptyWindow_rings (s : State) : (emptyWindow s).rings = s.rings := rfl

@[simp] theorem emptyWindow_vectors (s : State) : (emptyWindow s).vectors = s.vectors := rfl

@[simp] theorem emptyWindow_faults (s : State) : (emptyWindow s).faults = s.faults := rfl

@[simp] theorem emptyWindow_settings (s : State) : (emptyWindow s).settings = s.settings := rfl

@[simp] theorem emptyWindow_ports (s : State) : (emptyWindow s).ports = s.ports := rfl

@[simp] theorem emptyWindow_choices (s : State) : (emptyWindow s).choices = s.choices := rfl

@[simp] theorem emptyWindow_pending (s : State) : (emptyWindow s).pending = s.pending := rfl

/-! ## countMiss -/

@[simp] theorem countMiss_powered (s : State) : (countMiss s).powered = s.powered := rfl

@[simp] theorem countMiss_resetnLow (s : State) : (countMiss s).resetnLow = s.resetnLow := rfl

@[simp] theorem countMiss_load (s : State) : (countMiss s).load = s.load := rfl

@[simp] theorem countMiss_time (s : State) : (countMiss s).time = s.time := rfl

@[simp] theorem countMiss_sched (s : State) : (countMiss s).sched = s.sched := rfl

@[simp] theorem countMiss_pins (s : State) : (countMiss s).pins = s.pins := rfl

@[simp] theorem countMiss_watch (s : State) : (countMiss s).watch = s.watch := rfl

@[simp] theorem countMiss_subs (s : State) : (countMiss s).subs = s.subs := rfl

@[simp] theorem countMiss_rings (s : State) : (countMiss s).rings = s.rings := rfl

@[simp] theorem countMiss_vectors (s : State) : (countMiss s).vectors = s.vectors := rfl

@[simp] theorem countMiss_faults (s : State) : (countMiss s).faults = s.faults := rfl

@[simp] theorem countMiss_settings (s : State) : (countMiss s).settings = s.settings := rfl

@[simp] theorem countMiss_ports (s : State) : (countMiss s).ports = s.ports := rfl

@[simp] theorem countMiss_choices (s : State) : (countMiss s).choices = s.choices := rfl

@[simp] theorem countMiss_pending (s : State) : (countMiss s).pending = s.pending := rfl

/-! ## pinConfigured -/

@[simp] theorem pinConfigured_powered (pin : Pin) (m : PinMap) (level : Level) (s : State) : (pinConfigured pin m level s).powered = s.powered := rfl

@[simp] theorem pinConfigured_resetnLow (pin : Pin) (m : PinMap) (level : Level) (s : State) : (pinConfigured pin m level s).resetnLow = s.resetnLow := rfl

@[simp] theorem pinConfigured_load (pin : Pin) (m : PinMap) (level : Level) (s : State) : (pinConfigured pin m level s).load = s.load := rfl

@[simp] theorem pinConfigured_time (pin : Pin) (m : PinMap) (level : Level) (s : State) : (pinConfigured pin m level s).time = s.time := rfl

@[simp] theorem pinConfigured_disc (pin : Pin) (m : PinMap) (level : Level) (s : State) : (pinConfigured pin m level s).disc = s.disc := rfl

@[simp] theorem pinConfigured_sched (pin : Pin) (m : PinMap) (level : Level) (s : State) : (pinConfigured pin m level s).sched = s.sched := rfl

@[simp] theorem pinConfigured_pins (pin : Pin) (m : PinMap) (level : Level) (s : State) :
    (pinConfigured pin m level s).pins = s.pins.upd pin (PinCell.configure m s.time.rt s.sched.held) := rfl

@[simp] theorem pinConfigured_subs (pin : Pin) (m : PinMap) (level : Level) (s : State) : (pinConfigured pin m level s).subs = s.subs := rfl

@[simp] theorem pinConfigured_rings (pin : Pin) (m : PinMap) (level : Level) (s : State) : (pinConfigured pin m level s).rings = s.rings := rfl

@[simp] theorem pinConfigured_vectors (pin : Pin) (m : PinMap) (level : Level) (s : State) : (pinConfigured pin m level s).vectors = s.vectors := rfl

@[simp] theorem pinConfigured_faults (pin : Pin) (m : PinMap) (level : Level) (s : State) : (pinConfigured pin m level s).faults = s.faults := rfl

@[simp] theorem pinConfigured_settings (pin : Pin) (m : PinMap) (level : Level) (s : State) : (pinConfigured pin m level s).settings = s.settings := rfl

@[simp] theorem pinConfigured_ports (pin : Pin) (m : PinMap) (level : Level) (s : State) : (pinConfigured pin m level s).ports = s.ports := rfl

@[simp] theorem pinConfigured_choices (pin : Pin) (m : PinMap) (level : Level) (s : State) : (pinConfigured pin m level s).choices = s.choices := rfl

@[simp] theorem pinConfigured_pending (pin : Pin) (m : PinMap) (level : Level) (s : State) : (pinConfigured pin m level s).pending = s.pending := rfl

/-! ## faultConfigured -/

@[simp] theorem faultConfigured_powered (args : List Byte) (s : State) : (faultConfigured args s).powered = s.powered := rfl

@[simp] theorem faultConfigured_resetnLow (args : List Byte) (s : State) : (faultConfigured args s).resetnLow = s.resetnLow := rfl

@[simp] theorem faultConfigured_load (args : List Byte) (s : State) : (faultConfigured args s).load = s.load := rfl

@[simp] theorem faultConfigured_time (args : List Byte) (s : State) : (faultConfigured args s).time = s.time := rfl

@[simp] theorem faultConfigured_disc (args : List Byte) (s : State) : (faultConfigured args s).disc = s.disc := rfl

@[simp] theorem faultConfigured_sched (args : List Byte) (s : State) : (faultConfigured args s).sched = s.sched := rfl

@[simp] theorem faultConfigured_pins (args : List Byte) (s : State) : (faultConfigured args s).pins = s.pins := rfl

@[simp] theorem faultConfigured_watch (args : List Byte) (s : State) : (faultConfigured args s).watch = s.watch := rfl

@[simp] theorem faultConfigured_subs (args : List Byte) (s : State) : (faultConfigured args s).subs = s.subs := rfl

@[simp] theorem faultConfigured_rings (args : List Byte) (s : State) : (faultConfigured args s).rings = s.rings := rfl

@[simp] theorem faultConfigured_vectors (args : List Byte) (s : State) : (faultConfigured args s).vectors = s.vectors := rfl

@[simp] theorem faultConfigured_settings (args : List Byte) (s : State) : (faultConfigured args s).settings = s.settings := rfl

@[simp] theorem faultConfigured_ports (args : List Byte) (s : State) : (faultConfigured args s).ports = s.ports := rfl

@[simp] theorem faultConfigured_choices (args : List Byte) (s : State) : (faultConfigured args s).choices = s.choices := rfl

@[simp] theorem faultConfigured_pending (args : List Byte) (s : State) : (faultConfigured args s).pending = s.pending := rfl

/-! ## startWrite -/

@[simp] theorem startWrite_powered (p : Port) (freeze : Bool) (s : State) : (startWrite p freeze s).powered = s.powered := rfl

@[simp] theorem startWrite_resetnLow (p : Port) (freeze : Bool) (s : State) : (startWrite p freeze s).resetnLow = s.resetnLow := rfl

@[simp] theorem startWrite_load (p : Port) (freeze : Bool) (s : State) : (startWrite p freeze s).load = s.load := rfl

@[simp] theorem startWrite_time (p : Port) (freeze : Bool) (s : State) : (startWrite p freeze s).time = s.time := rfl

@[simp] theorem startWrite_disc (p : Port) (freeze : Bool) (s : State) : (startWrite p freeze s).disc = s.disc := rfl

@[simp] theorem startWrite_sched (p : Port) (freeze : Bool) (s : State) : (startWrite p freeze s).sched = s.sched := rfl

@[simp] theorem startWrite_pins (p : Port) (freeze : Bool) (s : State) : (startWrite p freeze s).pins = s.pins := rfl

@[simp] theorem startWrite_watch (p : Port) (freeze : Bool) (s : State) : (startWrite p freeze s).watch = s.watch := rfl

@[simp] theorem startWrite_subs (p : Port) (freeze : Bool) (s : State) : (startWrite p freeze s).subs = s.subs := rfl

@[simp] theorem startWrite_rings (p : Port) (freeze : Bool) (s : State) : (startWrite p freeze s).rings = s.rings := rfl

@[simp] theorem startWrite_vectors (p : Port) (freeze : Bool) (s : State) : (startWrite p freeze s).vectors = s.vectors := rfl

@[simp] theorem startWrite_faults (p : Port) (freeze : Bool) (s : State) : (startWrite p freeze s).faults = s.faults := rfl

@[simp] theorem startWrite_ports (p : Port) (freeze : Bool) (s : State) : (startWrite p freeze s).ports = s.ports := rfl

@[simp] theorem startWrite_choices (p : Port) (freeze : Bool) (s : State) : (startWrite p freeze s).choices = s.choices := rfl

@[simp] theorem startWrite_pending (p : Port) (freeze : Bool) (s : State) : (startWrite p freeze s).pending = s.pending := rfl

/-! ## startLease -/

@[simp] theorem startLease_powered (p : Port) (ms : Nat) (s : State) : (startLease p ms s).powered = s.powered := rfl

@[simp] theorem startLease_resetnLow (p : Port) (ms : Nat) (s : State) : (startLease p ms s).resetnLow = s.resetnLow := rfl

@[simp] theorem startLease_load (p : Port) (ms : Nat) (s : State) : (startLease p ms s).load = s.load := rfl

@[simp] theorem startLease_time (p : Port) (ms : Nat) (s : State) : (startLease p ms s).time = s.time := rfl

@[simp] theorem startLease_disc (p : Port) (ms : Nat) (s : State) : (startLease p ms s).disc = s.disc := rfl

@[simp] theorem startLease_sched (p : Port) (ms : Nat) (s : State) : (startLease p ms s).sched = s.sched := rfl

@[simp] theorem startLease_pins (p : Port) (ms : Nat) (s : State) : (startLease p ms s).pins = s.pins := rfl

@[simp] theorem startLease_watch (p : Port) (ms : Nat) (s : State) : (startLease p ms s).watch = s.watch := rfl

@[simp] theorem startLease_subs (p : Port) (ms : Nat) (s : State) : (startLease p ms s).subs = s.subs := rfl

@[simp] theorem startLease_rings (p : Port) (ms : Nat) (s : State) : (startLease p ms s).rings = s.rings := rfl

@[simp] theorem startLease_vectors (p : Port) (ms : Nat) (s : State) : (startLease p ms s).vectors = s.vectors := rfl

@[simp] theorem startLease_faults (p : Port) (ms : Nat) (s : State) : (startLease p ms s).faults = s.faults := rfl

@[simp] theorem startLease_settings (p : Port) (ms : Nat) (s : State) : (startLease p ms s).settings = s.settings := rfl

@[simp] theorem startLease_ports (p : Port) (ms : Nat) (s : State) :
    (startLease p ms s).ports = s.ports.upd p (PortState.startLease s.time.rt ms) := rfl

@[simp] theorem startLease_choices (p : Port) (ms : Nat) (s : State) : (startLease p ms s).choices = s.choices := rfl

@[simp] theorem startLease_pending (p : Port) (ms : Nat) (s : State) : (startLease p ms s).pending = s.pending := rfl

/-! ## pullPrstn -/

@[simp] theorem pullPrstn_powered (p : Port) (s : State) : (pullPrstn p s).powered = s.powered := rfl

@[simp] theorem pullPrstn_resetnLow (p : Port) (s : State) : (pullPrstn p s).resetnLow = s.resetnLow := rfl

@[simp] theorem pullPrstn_load (p : Port) (s : State) : (pullPrstn p s).load = s.load := rfl

@[simp] theorem pullPrstn_time (p : Port) (s : State) : (pullPrstn p s).time = s.time := rfl

@[simp] theorem pullPrstn_disc (p : Port) (s : State) : (pullPrstn p s).disc = s.disc := rfl

@[simp] theorem pullPrstn_sched (p : Port) (s : State) : (pullPrstn p s).sched = s.sched := rfl

@[simp] theorem pullPrstn_pins (p : Port) (s : State) : (pullPrstn p s).pins = s.pins := rfl

@[simp] theorem pullPrstn_watch (p : Port) (s : State) : (pullPrstn p s).watch = s.watch := rfl

@[simp] theorem pullPrstn_subs (p : Port) (s : State) : (pullPrstn p s).subs = s.subs := rfl

@[simp] theorem pullPrstn_rings (p : Port) (s : State) : (pullPrstn p s).rings = s.rings := rfl

@[simp] theorem pullPrstn_vectors (p : Port) (s : State) : (pullPrstn p s).vectors = s.vectors := rfl

@[simp] theorem pullPrstn_faults (p : Port) (s : State) : (pullPrstn p s).faults = s.faults := rfl

@[simp] theorem pullPrstn_settings (p : Port) (s : State) : (pullPrstn p s).settings = s.settings := rfl

@[simp] theorem pullPrstn_ports (p : Port) (s : State) :
    (pullPrstn p s).ports = s.ports.upd p fun q => { q with prstnLow := true } := rfl

@[simp] theorem pullPrstn_choices (p : Port) (s : State) : (pullPrstn p s).choices = s.choices := rfl

@[simp] theorem pullPrstn_pending (p : Port) (s : State) : (pullPrstn p s).pending = s.pending := rfl

/-! ## frameEnd -/

@[simp] theorem frameEnd_powered (p : Port) (s : State) : (frameEnd p s).powered = s.powered := rfl

@[simp] theorem frameEnd_resetnLow (p : Port) (s : State) : (frameEnd p s).resetnLow = s.resetnLow := rfl

@[simp] theorem frameEnd_load (p : Port) (s : State) : (frameEnd p s).load = s.load := rfl

@[simp] theorem frameEnd_time (p : Port) (s : State) : (frameEnd p s).time = s.time := rfl

@[simp] theorem frameEnd_disc (p : Port) (s : State) : (frameEnd p s).disc = s.disc := rfl

@[simp] theorem frameEnd_sched (p : Port) (s : State) : (frameEnd p s).sched = s.sched := rfl

@[simp] theorem frameEnd_pins (p : Port) (s : State) : (frameEnd p s).pins = s.pins := rfl

@[simp] theorem frameEnd_watch (p : Port) (s : State) : (frameEnd p s).watch = s.watch := rfl

@[simp] theorem frameEnd_subs (p : Port) (s : State) : (frameEnd p s).subs = s.subs := rfl

@[simp] theorem frameEnd_rings (p : Port) (s : State) : (frameEnd p s).rings = s.rings := rfl

@[simp] theorem frameEnd_vectors (p : Port) (s : State) : (frameEnd p s).vectors = s.vectors := rfl

@[simp] theorem frameEnd_faults (p : Port) (s : State) : (frameEnd p s).faults = s.faults := rfl

@[simp] theorem frameEnd_settings (p : Port) (s : State) : (frameEnd p s).settings = s.settings := rfl

@[simp] theorem frameEnd_ports (p : Port) (s : State) :
    (frameEnd p s).ports = s.ports.upd p fun q => { q with receiver := .idle, missed := false } := rfl

@[simp] theorem frameEnd_choices (p : Port) (s : State) : (frameEnd p s).choices = s.choices := rfl

@[simp] theorem frameEnd_pending (p : Port) (s : State) : (frameEnd p s).pending = s.pending := rfl

/-! ## receive -/

@[simp] theorem receive_powered (p : Port) (bs : List Byte) (n : Nat) (s : State) : (receive p bs n s).powered = s.powered := rfl

@[simp] theorem receive_resetnLow (p : Port) (bs : List Byte) (n : Nat) (s : State) : (receive p bs n s).resetnLow = s.resetnLow := rfl

@[simp] theorem receive_load (p : Port) (bs : List Byte) (n : Nat) (s : State) : (receive p bs n s).load = s.load := rfl

@[simp] theorem receive_time (p : Port) (bs : List Byte) (n : Nat) (s : State) : (receive p bs n s).time = s.time := rfl

@[simp] theorem receive_disc (p : Port) (bs : List Byte) (n : Nat) (s : State) : (receive p bs n s).disc = s.disc := rfl

@[simp] theorem receive_sched (p : Port) (bs : List Byte) (n : Nat) (s : State) : (receive p bs n s).sched = s.sched := rfl

@[simp] theorem receive_pins (p : Port) (bs : List Byte) (n : Nat) (s : State) : (receive p bs n s).pins = s.pins := rfl

@[simp] theorem receive_watch (p : Port) (bs : List Byte) (n : Nat) (s : State) : (receive p bs n s).watch = s.watch := rfl

@[simp] theorem receive_subs (p : Port) (bs : List Byte) (n : Nat) (s : State) : (receive p bs n s).subs = s.subs := rfl

@[simp] theorem receive_rings (p : Port) (bs : List Byte) (n : Nat) (s : State) : (receive p bs n s).rings = s.rings := rfl

@[simp] theorem receive_vectors (p : Port) (bs : List Byte) (n : Nat) (s : State) : (receive p bs n s).vectors = s.vectors := rfl

@[simp] theorem receive_faults (p : Port) (bs : List Byte) (n : Nat) (s : State) : (receive p bs n s).faults = s.faults := rfl

@[simp] theorem receive_settings (p : Port) (bs : List Byte) (n : Nat) (s : State) : (receive p bs n s).settings = s.settings := rfl

@[simp] theorem receive_ports (p : Port) (bs : List Byte) (n : Nat) (s : State) :
    (receive p bs n s).ports = s.ports.upd p fun q => { q with receiver := .receiving (bs.take 64) n } := rfl

@[simp] theorem receive_choices (p : Port) (bs : List Byte) (n : Nat) (s : State) : (receive p bs n s).choices = s.choices := rfl

@[simp] theorem receive_pending (p : Port) (bs : List Byte) (n : Nat) (s : State) : (receive p bs n s).pending = s.pending := rfl

/-! ## shiftOut -/

@[simp] theorem shiftOut_powered (p : Port) (s : State) : (shiftOut p s).powered = s.powered := rfl

@[simp] theorem shiftOut_resetnLow (p : Port) (s : State) : (shiftOut p s).resetnLow = s.resetnLow := rfl

@[simp] theorem shiftOut_load (p : Port) (s : State) : (shiftOut p s).load = s.load := rfl

@[simp] theorem shiftOut_time (p : Port) (s : State) : (shiftOut p s).time = s.time := rfl

@[simp] theorem shiftOut_disc (p : Port) (s : State) : (shiftOut p s).disc = s.disc := rfl

@[simp] theorem shiftOut_sched (p : Port) (s : State) : (shiftOut p s).sched = s.sched := rfl

@[simp] theorem shiftOut_pins (p : Port) (s : State) : (shiftOut p s).pins = s.pins := rfl

@[simp] theorem shiftOut_watch (p : Port) (s : State) : (shiftOut p s).watch = s.watch := rfl

@[simp] theorem shiftOut_subs (p : Port) (s : State) : (shiftOut p s).subs = s.subs := rfl

@[simp] theorem shiftOut_rings (p : Port) (s : State) : (shiftOut p s).rings = s.rings := rfl

@[simp] theorem shiftOut_vectors (p : Port) (s : State) : (shiftOut p s).vectors = s.vectors := rfl

@[simp] theorem shiftOut_faults (p : Port) (s : State) : (shiftOut p s).faults = s.faults := rfl

@[simp] theorem shiftOut_settings (p : Port) (s : State) : (shiftOut p s).settings = s.settings := rfl

@[simp] theorem shiftOut_choices (p : Port) (s : State) : (shiftOut p s).choices = s.choices := rfl

@[simp] theorem shiftOut_pending (p : Port) (s : State) : (shiftOut p s).pending = s.pending := rfl

/-! ## portResetOf -/

@[simp] theorem portResetOf_powered (p : Port) (s : State) : (portResetOf p s).powered = s.powered := rfl

@[simp] theorem portResetOf_resetnLow (p : Port) (s : State) : (portResetOf p s).resetnLow = s.resetnLow := rfl

@[simp] theorem portResetOf_load (p : Port) (s : State) : (portResetOf p s).load = s.load := rfl

@[simp] theorem portResetOf_time (p : Port) (s : State) : (portResetOf p s).time = s.time := rfl

@[simp] theorem portResetOf_watch (p : Port) (s : State) : (portResetOf p s).watch = s.watch := rfl

@[simp] theorem portResetOf_subs (p : Port) (s : State) :
    (portResetOf p s).subs = s.subs.set p (.fill 24 .none) := rfl

@[simp] theorem portResetOf_rings (p : Port) (s : State) :
    (portResetOf p s).rings = s.rings.set p .reset := rfl

@[simp] theorem portResetOf_vectors (p : Port) (s : State) :
    (portResetOf p s).vectors = s.vectors.set p .reset := rfl

@[simp] theorem portResetOf_faults (p : Port) (s : State) : (portResetOf p s).faults = s.faults := rfl

@[simp] theorem portResetOf_choices (p : Port) (s : State) : (portResetOf p s).choices = s.choices := rfl

@[simp] theorem portResetOf_pending (p : Port) (s : State) : (portResetOf p s).pending = s.pending := rfl

/-! ## hubResetAll -/

@[simp] theorem hubResetAll_powered (byRequest : Bool) (s : State) : (hubResetAll byRequest s).powered = s.powered := rfl

@[simp] theorem hubResetAll_resetnLow (byRequest : Bool) (s : State) : (hubResetAll byRequest s).resetnLow = s.resetnLow := rfl

@[simp] theorem hubResetAll_time (byRequest : Bool) (s : State) : (hubResetAll byRequest s).time = s.time := rfl

@[simp] theorem hubResetAll_disc (byRequest : Bool) (s : State) :
    (hubResetAll byRequest s).disc = s.disc.hubReset := rfl

@[simp] theorem hubResetAll_pins (byRequest : Bool) (s : State) :
    (hubResetAll byRequest s).pins = s.pins.map PinCell.hubReset := rfl

@[simp] theorem hubResetAll_faults (byRequest : Bool) (s : State) : (hubResetAll byRequest s).faults = s.faults := rfl

@[simp] theorem hubResetAll_ports (byRequest : Bool) (s : State) :
    (hubResetAll byRequest s).ports = s.ports.map PortState.hubReset := rfl

@[simp] theorem hubResetAll_choices (byRequest : Bool) (s : State) : (hubResetAll byRequest s).choices = s.choices := rfl

@[simp] theorem hubResetAll_pending (byRequest : Bool) (s : State) : (hubResetAll byRequest s).pending = s.pending := rfl

end Sys2Proof.Machine
end

