-- ==== Sys2Proof/Laws/Ops.lean ====
section
/-! SUPPORT. What each shared operation can change, said once. `LogOnly` is the footprint of an occurrence or a posting, `FireOnly`
that of expiries, `EdgeOnly` that of a reference edge; each operation has one lemma that puts it under its footprint, and each
footprint gives the fields that stay. -/

namespace Sys2Proof.Safety

open Sys2Proof.Machine

/-! ## Footprints -/

theorem LogOnly.refl (s : State) : LogOnly s s := ⟨rfl⟩

theorem FireOnly.refl (s : State) : FireOnly s s := ⟨rfl⟩

theorem EdgeOnly.refl (s : State) : EdgeOnly s s := ⟨rfl⟩

theorem LogOnly.trans {s t u : State} (h : LogOnly s t) (k : LogOnly t u) : LogOnly s u := by
  constructor
  have e := k.eq
  rw [h.eq] at e
  exact e

theorem FireOnly.trans {s t u : State} (h : FireOnly s t) (k : FireOnly t u) : FireOnly s u := by
  constructor
  have e := k.eq
  rw [h.eq] at e
  exact e

theorem EdgeOnly.trans {s t u : State} (h : EdgeOnly s t) (k : EdgeOnly t u) : EdgeOnly s u := by
  constructor
  have e := k.eq
  rw [h.eq] at e
  exact e

theorem LogOnly.fire {s t : State} (h : LogOnly s t) : FireOnly s t := by
  constructor
  rw [h.eq]

theorem FireOnly.edge {s t : State} (h : FireOnly s t) : EdgeOnly s t := by
  constructor
  rw [h.eq]

/-! ## What a footprint leaves alone -/

theorem LogOnly.powered {s t : State} (h : LogOnly s t) : t.powered = s.powered := by
  rw [h.eq]

theorem LogOnly.resetnLow {s t : State} (h : LogOnly s t) : t.resetnLow = s.resetnLow := by
  rw [h.eq]

theorem LogOnly.load {s t : State} (h : LogOnly s t) : t.load = s.load := by
  rw [h.eq]

theorem LogOnly.time {s t : State} (h : LogOnly s t) : t.time = s.time := by
  rw [h.eq]

theorem LogOnly.disc {s t : State} (h : LogOnly s t) : t.disc = s.disc := by
  rw [h.eq]

theorem LogOnly.pins {s t : State} (h : LogOnly s t) : t.pins = s.pins := by
  rw [h.eq]

theorem LogOnly.watch {s t : State} (h : LogOnly s t) : t.watch = s.watch := by
  rw [h.eq]

theorem LogOnly.subs {s t : State} (h : LogOnly s t) : t.subs = s.subs := by
  rw [h.eq]

theorem LogOnly.settings {s t : State} (h : LogOnly s t) : t.settings = s.settings := by
  rw [h.eq]

theorem LogOnly.ports {s t : State} (h : LogOnly s t) : t.ports = s.ports := by
  rw [h.eq]

theorem LogOnly.pending {s t : State} (h : LogOnly s t) : t.pending = s.pending := by
  rw [h.eq]

theorem LogOnly.held {s t : State} (h : LogOnly s t) : t.sched.held = s.sched.held := by
  rw [h.eq]

theorem LogOnly.lateThreshold {s t : State} (h : LogOnly s t) : t.sched.lateThreshold = s.sched.lateThreshold := by
  rw [h.eq]

theorem LogOnly.armed {s t : State} (h : LogOnly s t) : t.sched.armed = s.sched.armed := by
  rw [h.eq]

theorem LogOnly.waiting {s t : State} (h : LogOnly s t) : t.sched.waiting = s.sched.waiting := by
  rw [h.eq]

theorem FireOnly.powered {s t : State} (h : FireOnly s t) : t.powered = s.powered := by
  rw [h.eq]

theorem FireOnly.resetnLow {s t : State} (h : FireOnly s t) : t.resetnLow = s.resetnLow := by
  rw [h.eq]

theorem FireOnly.load {s t : State} (h : FireOnly s t) : t.load = s.load := by
  rw [h.eq]

theorem FireOnly.time {s t : State} (h : FireOnly s t) : t.time = s.time := by
  rw [h.eq]

theorem FireOnly.disc {s t : State} (h : FireOnly s t) : t.disc = s.disc := by
  rw [h.eq]

theorem FireOnly.watch {s t : State} (h : FireOnly s t) : t.watch = s.watch := by
  rw [h.eq]

theorem FireOnly.subs {s t : State} (h : FireOnly s t) : t.subs = s.subs := by
  rw [h.eq]

theorem FireOnly.settings {s t : State} (h : FireOnly s t) : t.settings = s.settings := by
  rw [h.eq]

theorem FireOnly.ports {s t : State} (h : FireOnly s t) : t.ports = s.ports := by
  rw [h.eq]

theorem FireOnly.pending {s t : State} (h : FireOnly s t) : t.pending = s.pending := by
  rw [h.eq]

theorem FireOnly.held {s t : State} (h : FireOnly s t) : t.sched.held = s.sched.held := by
  rw [h.eq]

theorem FireOnly.lateThreshold {s t : State} (h : FireOnly s t) : t.sched.lateThreshold = s.sched.lateThreshold := by
  rw [h.eq]

theorem EdgeOnly.powered {s t : State} (h : EdgeOnly s t) : t.powered = s.powered := by
  rw [h.eq]

theorem EdgeOnly.resetnLow {s t : State} (h : EdgeOnly s t) : t.resetnLow = s.resetnLow := by
  rw [h.eq]

theorem EdgeOnly.load {s t : State} (h : EdgeOnly s t) : t.load = s.load := by
  rw [h.eq]

theorem EdgeOnly.subs {s t : State} (h : EdgeOnly s t) : t.subs = s.subs := by
  rw [h.eq]

theorem EdgeOnly.settings {s t : State} (h : EdgeOnly s t) : t.settings = s.settings := by
  rw [h.eq]

theorem EdgeOnly.ports {s t : State} (h : EdgeOnly s t) : t.ports = s.ports := by
  rw [h.eq]

theorem EdgeOnly.pending {s t : State} (h : EdgeOnly s t) : t.pending = s.pending := by
  rw [h.eq]

theorem EdgeOnly.held {s t : State} (h : EdgeOnly s t) : t.sched.held = s.sched.held := by
  rw [h.eq]

theorem EdgeOnly.lateThreshold {s t : State} (h : EdgeOnly s t) : t.sched.lateThreshold = s.sched.lateThreshold := by
  rw [h.eq]

end Sys2Proof.Safety

namespace Sys2Proof.Machine

open Sys2Proof.Safety

/-! ## Raises, postings, occurrences -/

theorem raiseVec_logOnly (p : Port) (v : VecNo) (s : State) : LogOnly s (raiseVec p v s) := ⟨rfl⟩

theorem raiseClass_logOnly (p : Port) (c : RaiseClass) (s : State) : LogOnly s (raiseClass p c s) := ⟨rfl⟩

theorem raiseClassAll_logOnly (c : RaiseClass) (ps : List Port) (s : State) : LogOnly s (raiseClassAll c ps s) := by
  induction ps generalizing s with
  | nil => exact .refl s
  | cons p ps ih => exact (raiseClass_logOnly p c s).trans (ih _)

theorem ringPut_logOnly (p : Port) (r : Record) (s : State) : LogOnly s (ringPut p r s).1 := by
  unfold ringPut
  dsimp only
  split <;> split <;> exact ⟨rfl⟩

theorem ringPutAll_logOnly (r : Record) (ps : List Port) (s : State) : LogOnly s (ringPutAll r ps s).1 := by
  induction ps generalizing s with
  | nil => exact .refl s
  | cons p ps ih => exact (ringPut_logOnly p r s).trans (ih _)

theorem bumpCount_logOnly (k : FaultKind) (s : State) : LogOnly s (bumpCount k s) := ⟨rfl⟩

theorem captureOccurrence_logOnly (k : FaultKind) (p : Option Port) (c : FaultContext) (s : State) :
    LogOnly s (captureOccurrence k p c s) := by
  unfold captureOccurrence
  split <;> exact ⟨rfl⟩

theorem setFaultn_logOnly (s : State) : LogOnly s (setFaultn s) := ⟨rfl⟩

theorem handHoldNotice_logOnly (s : State) : LogOnly s (handHoldNotice s) := ⟨rfl⟩

theorem notifyOccurrence_logOnly (k : FaultKind) (sev : Severity) (s : State) :
    LogOnly s (notifyOccurrence k sev s).1 :=
  (ringPutAll_logOnly _ _ s).trans (raiseClassAll_logOnly _ _ _)

theorem occurOne_logOnly (k : FaultKind) (p : Option Port) (c : FaultContext) (s : State) :
    LogOnly s (occurOne k p c s).1 := by
  have h1 := bumpCount_logOnly k s
  have h2 := (h1.trans (captureOccurrence_logOnly k p c _)).trans (setFaultn_logOnly _)
  unfold occurOne
  dsimp only
  generalize setFaultn (captureOccurrence k p c (bumpCount k s)) = s2 at h2 ⊢
  by_cases hm : (s.faults.cells.get k.idx).masked = true
  · simpa only [hm, if_true] using h1
  · have h3 : LogOnly s (if (s.faults.cells.get k.idx).count = 0 then
        notifyOccurrence k (s.faults.cells.get k.idx).severity s2 else (s2, [])).1 := by
      split
      · exact h2.trans (notifyOccurrence_logOnly k _ _)
      · exact h2
    simp only [if_neg hm]
    generalize (if (s.faults.cells.get k.idx).count = 0 then
      notifyOccurrence k (s.faults.cells.get k.idx).severity s2 else (s2, [])) = r at h3 ⊢
    split
    · exact h3.trans (handHoldNotice_logOnly _)
    · exact h3

theorem occurOverflows_logOnly (ps : List Port) (s : State) : LogOnly s (occurOverflows ps s).1 := by
  induction ps generalizing s with
  | nil => exact .refl s
  | cons p ps ih => exact (occurOne_logOnly _ _ _ s).trans (ih _)

theorem freeOrder_logOnly (l : List Port) (s : State) : LogOnly s (freeOrder l s).2 := by
  unfold freeOrder
  split <;> exact ⟨rfl⟩

theorem reportOverflows_logOnly (ps : List Port) (s : State) : LogOnly s (reportOverflows ps s) :=
  (((freeOrder_logOnly ps s).trans (occurOverflows_logOnly _ _)).trans (freeOrder_logOnly _ _)).trans
    (occurOverflows_logOnly _ _)

theorem occur_logOnly (k : FaultKind) (p : Option Port) (c : FaultContext) (s : State) : LogOnly s (occur k p c s) :=
  (occurOne_logOnly k p c s).trans (reportOverflows_logOnly _ _)

theorem post_logOnly (p : Port) (r : Record) (s : State) : LogOnly s (post p r s) := by
  unfold post
  dsimp only
  split
  · exact (ringPut_logOnly p r s).trans (reportOverflows_logOnly _ _)
  · exact ringPut_logOnly p r s

theorem postAll_logOnly (r : Record) (ps : List Port) (s : State) : LogOnly s (postAll r ps s) :=
  (ringPutAll_logOnly r ps s).trans (reportOverflows_logOnly _ _)

theorem drawFirst_logOnly (s : State) : LogOnly s (drawFirst s).2 := ⟨rfl⟩

/-! ## Expiries -/

theorem levelDrive_fireOnly (pin : Pin) (level : Level) (s : State) : FireOnly s (levelDrive pin level s) := ⟨rfl⟩

theorem armEntry_fireOnly (a : Armed) (s : State) : FireOnly s (armEntry a s) := ⟨rfl⟩

theorem waitEntry_fireOnly (e : Entry) (s : State) : FireOnly s (waitEntry e s) := ⟨rfl⟩

theorem expiryDrive_fireOnly (a : Armed) (s : State) : FireOnly s (expiryDrive a s) := by
  unfold expiryDrive
  split <;> first | exact levelDrive_fireOnly _ _ s | exact .refl s

theorem lateFire_logOnly (a : Armed) (n : Nat) (s : State) : LogOnly s (lateFire a n s) := by
  unfold lateFire
  split
  · exact occur_logOnly _ _ _ s
  · exact .refl s

theorem firedRecord_logOnly (a : Armed) (n : Nat) (c : Continuation) (s : State) : LogOnly s (firedRecord a n c s) := by
  unfold firedRecord
  dsimp only
  split
  · exact post_logOnly _ _ s
  · exact .refl s

theorem entryRaise_logOnly (a : Armed) (s : State) : LogOnly s (entryRaise a s) := by
  unfold entryRaise
  split
  · exact .refl s
  · exact raiseVec_logOnly _ _ s

theorem continueEntry_fireOnly (a : Armed) (c : Continuation) (s : State) : FireOnly s (continueEntry a c s) := by
  unfold continueEntry
  split
  · exact .refl s
  · exact armEntry_fireOnly _ s
  · exact waitEntry_fireOnly _ s

theorem completeFiring_fireOnly (a : Armed) (n : Nat) (s : State) : FireOnly s (completeFiring a n s) :=
  (continueEntry_fireOnly a _ s).trans
    (((firedRecord_logOnly a n _ _).trans (entryRaise_logOnly a _)).trans (lateFire_logOnly a n _)).fire

theorem expireOne_fireOnly (a : Armed) (n : Nat) (s : State) : FireOnly s (expireOne a n s) := by
  have h := expiryDrive_fireOnly a s
  unfold expireOne
  dsimp only
  split
  · exact (h.trans (armEntry_fireOnly _ _)).trans (lateFire_logOnly a n _).fire
  all_goals exact h.trans (completeFiring_fireOnly a n _)

theorem expireDue_fireOnly (late : Bool) (n : Nat) (s : State) : FireOnly s (expireDue late n s).1 := by
  induction n generalizing s with
  | zero => exact .refl s
  | succ n ih =>
    unfold expireDue
    split
    · exact .refl s
    · split
      · exact (FireOnly.trans ⟨rfl⟩ (expireOne_fireOnly _ _ _)).trans (ih _)
      · exact .refl s

theorem takeDue_fireOnly (late : Bool) (s : State) : FireOnly s (takeDue late s).1 := expireDue_fireOnly late _ s

theorem armOldest_fireOnly (pin : Pin) (ed : Edge) (n : Nat) (o : Port) (s : State) :
    FireOnly s (armOldest pin ed n o s) := by
  unfold armOldest
  split
  · exact .refl s
  · exact ⟨rfl⟩

theorem armQueues_fireOnly (pin : Pin) (ed : Edge) (n : Nat) (os : List Port) (s : State) :
    FireOnly s (armQueues pin ed n os s) := by
  induction os generalizing s with
  | nil => exact .refl s
  | cons o os ih => exact (armOldest_fireOnly pin ed n o s).trans (ih _)

theorem edgeArrival_fireOnly (pin : Pin) (ed : Edge) (n : Nat) (s : State) : FireOnly s (edgeArrival pin ed n s) :=
  (armQueues_fireOnly pin ed n _ s).trans (takeDue_fireOnly true _)

/-! ## Purges -/

theorem postCancelled_logOnly (why : Reason) (es : List Entry) (s : State) : LogOnly s (postCancelled why es s) := by
  induction es generalizing s with
  | nil => exact .refl s
  | cons e es ih => exact (post_logOnly _ _ s).trans (ih _)

theorem purgePin_fireOnly (p : Port) (pin : Pin) (why : Reason) (s : State) : FireOnly s (purgePin p pin why s) :=
  FireOnly.trans ⟨rfl⟩ (postCancelled_logOnly why _ _).fire

theorem loseClaim_fireOnly (p : Port) (pin : Pin) (why : Reason) (s : State) : FireOnly s (loseClaim p pin why s) :=
  (purgePin_fireOnly p pin why s).trans ⟨rfl⟩

theorem expireClaim_fireOnly (p : Port) (pin : Pin) (s : State) : FireOnly s (expireClaim p pin s) :=
  (loseClaim_fireOnly p pin .lease s).trans (post_logOnly _ _ _).fire

theorem expireClaims_fireOnly (p : Port) (pins : List Pin) (s : State) : FireOnly s (expireClaims p pins s) := by
  induction pins generalizing s with
  | nil => exact .refl s
  | cons pin pins ih =>
    unfold expireClaims
    split
    · exact (expireClaim_fireOnly p pin s).trans (ih _)
    · exact ih s

/-! ## Steps of hub time and edges of the reference -/

theorem scheduleStep_fireOnly (s : State) : FireOnly s (scheduleStep s) := takeDue_fireOnly true s

theorem stepNotices_edgeOnly (n : Nat) (s : State) : EdgeOnly s (stepNotices n s) := by
  have h : EdgeOnly s (markWindows s) := ⟨rfl⟩
  unfold stepNotices
  dsimp only
  split
  · have k := h.trans (drawFirst_logOnly (markWindows s)).fire.edge
    split
    · exact k.trans ((occur_logOnly _ _ _ _).fire.trans (scheduleStep_fireOnly _)).edge
    · exact k.trans ((scheduleStep_fireOnly _).trans (occur_logOnly _ _ _ _).fire).edge
  · exact h.trans (occur_logOnly _ _ _ _).fire.edge

theorem forwardStep_edgeOnly (n : Nat) (s : State) : EdgeOnly s (forwardStep n s) :=
  EdgeOnly.trans ⟨rfl⟩ (stepNotices_edgeOnly _ _)

theorem reportChange_logOnly (old new : DiscState) (s : State) : LogOnly s (reportChange old new s) :=
  (postAll_logOnly _ _ s).trans (raiseClassAll_logOnly _ _ _)

theorem enterState_edgeOnly (new : DiscState) (s : State) : EdgeOnly s (enterState new s) := by
  unfold enterState
  dsimp only
  split
  · exact ⟨rfl⟩
  · exact EdgeOnly.trans ⟨rfl⟩ (reportChange_logOnly _ _ _).fire.edge

theorem edgeInSearch_edgeOnly (s : State) : EdgeOnly s (edgeInSearch s) := by
  unfold edgeInSearch
  split
  · exact ⟨rfl⟩
  · exact EdgeOnly.trans ⟨rfl⟩ (enterState_edgeOnly _ _)

theorem edgeInHoldover_edgeOnly (e : Int) (s : State) : EdgeOnly s (edgeInHoldover e s) := by
  unfold edgeInHoldover
  split
  · exact ⟨rfl⟩
  · exact EdgeOnly.trans ⟨rfl⟩ (enterState_edgeOnly _ _)

theorem edgeInAcquire_edgeOnly (e : Int) (s : State) : EdgeOnly s (edgeInAcquire e s) := by
  unfold edgeInAcquire
  dsimp only
  split
  · exact ⟨rfl⟩
  · split
    · exact EdgeOnly.trans ⟨rfl⟩ (forwardStep_edgeOnly _ _)
    · split
      · exact EdgeOnly.trans ⟨rfl⟩ (enterState_edgeOnly _ _)
      · exact ⟨rfl⟩

theorem intoLongWindow_edgeOnly (e : Int) (s : State) : EdgeOnly s (intoLongWindow e s) := by
  unfold intoLongWindow
  dsimp only
  split
  · exact ⟨rfl⟩
  · split
    · exact EdgeOnly.trans ⟨rfl⟩ (enterState_edgeOnly _ _)
    · exact ⟨rfl⟩

theorem edgeInTrack_edgeOnly (e : Int) (s : State) : EdgeOnly s (edgeInTrack e s) := by
  unfold edgeInTrack
  split
  · exact EdgeOnly.trans ⟨rfl⟩ (enterState_edgeOnly _ _)
  · exact intoLongWindow_edgeOnly e s

theorem unlock_edgeOnly (e : Int) (s : State) : EdgeOnly s (unlock e s) := by
  unfold unlock
  dsimp only
  split
  · exact EdgeOnly.trans ⟨rfl⟩ (occur_logOnly _ _ _ _).fire.edge
  · split
    · exact EdgeOnly.trans ⟨rfl⟩ ((occur_logOnly _ _ _ _).trans (reportChange_logOnly _ _ _)).fire.edge
    · exact EdgeOnly.trans ⟨rfl⟩ ((reportChange_logOnly _ _ _).trans (occur_logOnly _ _ _ _)).fire.edge

theorem handleEdge_edgeOnly (s : State) : EdgeOnly s (handleEdge s) := by
  unfold handleEdge
  split
  · exact .refl s
  · exact edgeInSearch_edgeOnly s
  · exact edgeInAcquire_edgeOnly _ s
  · exact edgeInTrack_edgeOnly _ s
  · unfold edgeInLocked
    split
    · exact unlock_edgeOnly _ s
    · exact intoLongWindow_edgeOnly _ s
  · exact edgeInHoldover_edgeOnly _ s

theorem activeEdge_edgeOnly (ed : Edge) (s : State) : EdgeOnly s (activeEdge ed s) := by
  unfold activeEdge
  split
  · split
    · exact EdgeOnly.trans ⟨rfl⟩ (handleEdge_edgeOnly _)
    · exact (occur_logOnly _ _ _ s).fire.edge
  · exact .refl s

theorem handOn_fireOnly (pin : Pin) (ed : Edge) (ht : Nat) (epoch : BitVec 16) (locked late : Bool) (s : State) :
    FireOnly s (handOn pin ed ht epoch locked late s) :=
  (postAll_logOnly _ _ s).fire.trans (edgeArrival_fireOnly pin ed ht _)

/-! ## Insertion -/

/-- An insertion adds its entry and loses none. -/
theorem insertArmed_perm (a : Armed) (l : List Armed) : (insertArmed a l).Perm (a :: l) := by
  induction l with
  | nil => exact .refl _
  | cons b l ih =>
    unfold insertArmed
    split
    · exact (ih.cons b).trans (List.Perm.swap a b l)
    · exact .refl _

/-! ## Requests -/

/-- What a request frame can do: it only ends where the port takes none, and otherwise its rule's outcome with the buffer written. -/
theorem request_cases (p : Port) (code : Byte) (s : State) (rule : State → Reply) :
    request p code s rule = frameEnd p s ∧ s.takesFrames p = false ∨
      request p code s rule = answer p ⟨(rule s).status, code, (rule s).data⟩ (rule s).state ∧ s.takesFrames p = true := by
  unfold request
  cases h : s.takesFrames p
  · exact .inl ⟨rfl, rfl⟩
  · exact .inr ⟨rfl, rfl⟩

theorem request_taken {p : Port} {s : State} (h : s.takesFrames p = true) (code : Byte) (rule : State → Reply) :
    request p code s rule = answer p ⟨(rule s).status, code, (rule s).data⟩ (rule s).state := by
  simp [request, h]

theorem request_untaken {p : Port} {s : State} (h : s.takesFrames p = false) (code : Byte) (rule : State → Reply) :
    request p code s rule = frameEnd p s := by
  simp [request, h]

/-- The end of a frame leaves a port whose receiver is idle, and which misses no frame, as it was. -/
theorem frameEnd_idle {p : Port} {s : State} (h : (s.ports.get p).receiver = .idle) (k : (s.ports.get p).missed = false) :
    frameEnd p s = s := by
  have e : (s.ports.upd p fun q => { q with receiver := .idle, missed := false }) = s.ports := by
    refine Tab.ext_get fun i => ?_
    rw [Tab.get_upd]
    split
    · next hi => rw [← hi, ← h, ← k]
    · rfl
  unfold frameEnd
  rw [e]

/-- The outcome of a frame replaces all that its receiver held. -/
theorem answer_receive (p : Port) (r : Result) (bytes : List Byte) (trailing : Nat) (s : State) :
    answer p r (receive p bytes trailing s) = answer p r s := by
  have e : ((receive p bytes trailing s).ports.upd p fun q => { q with receiver := .idle, sdo := [], result := r }) =
      s.ports.upd p fun q => { q with receiver := .idle, sdo := [], result := r } := by
    refine Tab.ext_get fun i => ?_
    simp only [receive_ports, Tab.get_upd]
    split <;> simp
  unfold answer
  rw [e]
  rfl

end Sys2Proof.Machine
end

