-- ==== Sys2Proof/Laws/Log.lean ====
section
/-! SUPPORT. What postings and occurrences do to the occurrence counts of the fault log and to the records of the rings. A posting
may bring occurrences of RING_OVERFLOW and no others; no operation of this file takes a record out of a ring. -/

namespace Sys2Proof.Machine

open Sys2Proof.Safety

/-! ## The fault log is untouched by raises and by a ring's own part of a posting -/

@[simp] theorem raiseClassAll_faults (c : RaiseClass) (ps : List Port) (s : State) :
    (raiseClassAll c ps s).faults = s.faults := by
  induction ps generalizing s with
  | nil => rfl
  | cons p ps ih => simp [raiseClassAll, ih]

@[simp] theorem ringPut_faults (p : Port) (r : Record) (s : State) : (ringPut p r s).1.faults = s.faults := by
  unfold ringPut
  dsimp only
  split <;> split <;> simp

@[simp] theorem ringPutAll_faults (r : Record) (ps : List Port) (s : State) :
    (ringPutAll r ps s).1.faults = s.faults := by
  induction ps generalizing s with
  | nil => rfl
  | cons p ps ih => simp [ringPutAll, ih]

/-! ## Counts -/

theorem FaultKind.idx_inj {j k : FaultKind} : j.idx = k.idx ↔ j = k := by
  cases j <;> cases k <;> decide

theorem countOf_congr {s t : State} (h : t.faults.cells = s.faults.cells) (k : FaultKind) : countOf t k = countOf s k := by
  simp [countOf, h]

theorem countOf_of_faults {s t : State} (h : t.faults = s.faults) (k : FaultKind) : countOf t k = countOf s k :=
  countOf_congr (by rw [h]) k

theorem bumpCount_count (k j : FaultKind) (s : State) :
    countOf (bumpCount k s) j = if j = k then bumped (countOf s k) else countOf s j := by
  by_cases h : j = k
  · subst h
    simp [countOf, bumpCount, bumped]
  · have : k.idx ≠ j.idx := fun e => h (FaultKind.idx_inj.1 e).symm
    simp [countOf, bumpCount, h, this]

/-- An occurrence moves the counts only by its own. -/
theorem occurOne_cells (k : FaultKind) (p : Option Port) (c : FaultContext) (s : State) :
    (occurOne k p c s).1.faults.cells = (bumpCount k s).faults.cells := by
  have h : (setFaultn (captureOccurrence k p c (bumpCount k s))).faults.cells = (bumpCount k s).faults.cells := by
    unfold captureOccurrence
    split <;> rfl
  unfold occurOne
  dsimp only
  generalize setFaultn (captureOccurrence k p c (bumpCount k s)) = s2 at h ⊢
  split
  · rfl
  · by_cases hc : (s.faults.cells.get k.idx).count = 0
    · simp only [hc, if_true]
      unfold notifyOccurrence
      split <;> simp [handHoldNotice, h]
    · simp only [hc, if_false]
      split
      · exact h
      · exact h

theorem occurOne_count (k : FaultKind) (p : Option Port) (c : FaultContext) (j : FaultKind) (s : State) :
    countOf (occurOne k p c s).1 j = if j = k then bumped (countOf s k) else countOf s j := by
  rw [countOf_congr (occurOne_cells k p c s), bumpCount_count]

theorem occurOverflows_count {j : FaultKind} (h : j ≠ .ringOverflow) (ps : List Port) (s : State) :
    countOf (occurOverflows ps s).1 j = countOf s j := by
  induction ps generalizing s with
  | nil => rfl
  | cons p ps ih => simp [occurOverflows, ih, occurOne_count, h]

@[simp] theorem freeOrder_faults (l : List Port) (s : State) : (freeOrder l s).2.faults = s.faults := by
  unfold freeOrder
  split <;> rfl

theorem reportOverflows_count {j : FaultKind} (h : j ≠ .ringOverflow) (ps : List Port) (s : State) :
    countOf (reportOverflows ps s) j = countOf s j :=
  (occurOverflows_count h _ _).trans <| (countOf_of_faults (freeOrder_faults _ _) j).trans <|
    (occurOverflows_count h _ _).trans (countOf_of_faults (freeOrder_faults _ _) j)

/-- An occurrence with all that follows from it: its own count rises by one, and no other but RING_OVERFLOW's changes. -/
theorem occur_count {j : FaultKind} (h : j ≠ .ringOverflow) (k : FaultKind) (p : Option Port) (c : FaultContext) (s : State) :
    countOf (occur k p c s) j = if j = k then bumped (countOf s k) else countOf s j :=
  (reportOverflows_count h _ _).trans (occurOne_count k p c j s)

theorem post_count {j : FaultKind} (h : j ≠ .ringOverflow) (p : Port) (r : Record) (s : State) :
    countOf (post p r s) j = countOf s j := by
  have k : countOf (ringPut p r s).1 j = countOf s j := countOf_of_faults (ringPut_faults p r s) j
  unfold post
  dsimp only
  split
  · rw [reportOverflows_count h, k]
  · exact k

theorem postAll_count {j : FaultKind} (h : j ≠ .ringOverflow) (r : Record) (ps : List Port) (s : State) :
    countOf (postAll r ps s) j = countOf s j :=
  (reportOverflows_count h _ _).trans (countOf_of_faults (ringPutAll_faults r ps s) j)

/-! ## Records -/

/-- Every ring of `t` holds what it held in `s`, and then perhaps more. -/
def RecordsGrow (s t : State) : Prop :=
  ∀ p : Port, ∃ later, (t.rings.get p).records = (s.rings.get p).records ++ later

theorem RecordsGrow.of_eq {s t : State} (h : t.rings = s.rings) : RecordsGrow s t := fun p => ⟨[], by simp [h]⟩

theorem RecordsGrow.refl (s : State) : RecordsGrow s s := .of_eq rfl

theorem RecordsGrow.trans {s t u : State} (h : RecordsGrow s t) (k : RecordsGrow t u) : RecordsGrow s u := by
  intro p
  obtain ⟨a, ha⟩ := h p
  obtain ⟨b, hb⟩ := k p
  exact ⟨a ++ b, by rw [hb, ha, List.append_assoc]⟩

@[simp] theorem raiseClassAll_rings (c : RaiseClass) (ps : List Port) (s : State) :
    (raiseClassAll c ps s).rings = s.rings := by
  induction ps generalizing s with
  | nil => rfl
  | cons p ps ih => simp [raiseClassAll, ih]

/-- The rings after a ring's own part of a posting: its own ring takes the record, the others stay. -/
theorem ringPut_rings (p : Port) (r : Record) (s : State) :
    (ringPut p r s).1.rings = s.rings.set p ((s.rings.get p).take r) := by
  unfold ringPut
  dsimp only
  split <;> split <;> simp

/-- Below 32 records the record joins the tail with the pending-drop count. -/
theorem ringPut_append {p : Port} {s : State} (h : (s.rings.get p).records.length < 32) (r : Record) :
    ((ringPut p r s).1.rings.get p).records = (s.rings.get p).records ++ [asAppended s p r] ∧
      (ringPut p r s).2 = false := by
  constructor
  · rw [ringPut_rings]
    simp [Ring.take, h, asAppended]
  · have : (s.rings.get p).beginsEpisode = false := by
      simp [Ring.beginsEpisode]
      omega
    simp [ringPut, this]

theorem ringPut_grow (p : Port) (r : Record) (s : State) : RecordsGrow s (ringPut p r s).1 := by
  intro q
  rw [ringPut_rings, Tab.get_set]
  by_cases h : p = q
  · subst h
    simp only [if_true, Ring.take]
    split
    · exact ⟨_, rfl⟩
    · exact ⟨[], by simp⟩
  · exact ⟨[], by simp [h]⟩

theorem ringPutAll_grow (r : Record) (ps : List Port) (s : State) : RecordsGrow s (ringPutAll r ps s).1 := by
  induction ps generalizing s with
  | nil => exact .refl s
  | cons p ps ih => exact (ringPut_grow p r s).trans (ih _)

theorem notifyOccurrence_grow (k : FaultKind) (sev : Severity) (s : State) : RecordsGrow s (notifyOccurrence k sev s).1 :=
  (ringPutAll_grow _ _ s).trans (.of_eq (raiseClassAll_rings _ _ _))

theorem occurOne_grow (k : FaultKind) (p : Option Port) (c : FaultContext) (s : State) :
    RecordsGrow s (occurOne k p c s).1 := by
  have h : (setFaultn (captureOccurrence k p c (bumpCount k s))).rings = s.rings := by
    unfold captureOccurrence
    split <;> rfl
  unfold occurOne
  dsimp only
  generalize setFaultn (captureOccurrence k p c (bumpCount k s)) = s2 at h ⊢
  split
  · exact .of_eq rfl
  · by_cases hc : (s.faults.cells.get k.idx).count = 0
    · simp only [hc, if_true]
      have g := (RecordsGrow.of_eq h).trans (notifyOccurrence_grow k (s.faults.cells.get k.idx).severity s2)
      split
      · exact g.trans (.of_eq rfl)
      · exact g
    · simp only [hc, if_false]
      split
      · exact .of_eq h
      · exact .of_eq h

theorem occurOverflows_grow (ps : List Port) (s : State) : RecordsGrow s (occurOverflows ps s).1 := by
  induction ps generalizing s with
  | nil => exact .refl s
  | cons p ps ih => exact (occurOne_grow _ _ _ _).trans (ih _)

@[simp] theorem freeOrder_rings (l : List Port) (s : State) : (freeOrder l s).2.rings = s.rings := by
  unfold freeOrder
  split <;> rfl

theorem reportOverflows_grow (ps : List Port) (s : State) : RecordsGrow s (reportOverflows ps s) :=
  (RecordsGrow.of_eq (freeOrder_rings ps s)).trans <| (occurOverflows_grow _ _).trans <|
    (RecordsGrow.of_eq (freeOrder_rings _ _)).trans (occurOverflows_grow _ _)

theorem occur_grow (k : FaultKind) (p : Option Port) (c : FaultContext) (s : State) : RecordsGrow s (occur k p c s) :=
  (occurOne_grow k p c s).trans (reportOverflows_grow _ _)

theorem post_grow (p : Port) (r : Record) (s : State) : RecordsGrow s (post p r s) := by
  unfold post
  dsimp only
  split
  · exact (ringPut_grow p r s).trans (reportOverflows_grow _ _)
  · exact ringPut_grow p r s

theorem postAll_grow (r : Record) (ps : List Port) (s : State) : RecordsGrow s (postAll r ps s) :=
  (ringPutAll_grow r ps s).trans (reportOverflows_grow _ _)

/-- A ring that has grown since it took a record holds it. -/
theorem Appended_later {s t u : State} {p : Port} {r : Record} (h : Appended s t p r) (k : RecordsGrow t u) :
    Appended s u p r := by
  obtain ⟨a, ha⟩ := h
  obtain ⟨b, hb⟩ := k p
  exact ⟨a ++ b, by rw [hb, ha]; simp⟩

/-- A record posted to a ring with fewer than 32 records is in it. -/
theorem post_appended {p : Port} {s : State} (h : (s.rings.get p).records.length < 32) (r : Record) :
    Appended s (post p r s) p r := by
  have e := ringPut_append h r
  unfold post
  dsimp only
  rw [e.2]
  exact ⟨[], by simpa using e.1⟩

/-- A record posted to a list of rings is in each of them that had fewer than 32 records. -/
theorem ringPutAll_appended {p : Port} {s : State} (h : (s.rings.get p).records.length < 32) (r : Record) {ps : List Port}
    (hp : p ∈ ps) : Appended s (ringPutAll r ps s).1 p r := by
  induction ps generalizing s with
  | nil => cases hp
  | cons q qs ih =>
    by_cases e : q = p
    · subst e
      have g : Appended s (ringPut q r s).1 q r := ⟨[], by simpa using (ringPut_append h r).1⟩
      exact Appended_later g (ringPutAll_grow r qs _)
    · have hq : p ∈ qs := by
        rcases List.mem_cons.1 hp with rfl | hq
        · exact absurd rfl e
        · exact hq
      have hr : (ringPut q r s).1.rings.get p = s.rings.get p := by
        rw [ringPut_rings, Tab.get_set_ne _ _ e]
      have k := ih (s := (ringPut q r s).1) (by rw [hr]; exact h) hq
      obtain ⟨later, hl⟩ := k
      refine ⟨later, ?_⟩
      simpa [ringPutAll, hr, asAppended] using hl

theorem postAll_appended {p : Port} {s : State} (h : (s.rings.get p).records.length < 32) (r : Record) {ps : List Port}
    (hp : p ∈ ps) : Appended s (postAll r ps s) p r :=
  Appended_later (ringPutAll_appended h r hp) (reportOverflows_grow _ _)

end Sys2Proof.Machine
end

