-- ==== Sys2Proof/Tests/Slice0.lean ====
section
/-! SUPPORT. The model's own tests: what WellFormed refuses, the manual's worked examples, and for every statement that has
hypotheses a concrete state and operands that meet them (`witness_…`). -/

namespace Sys2Proof.Tests

open Sys2Proof Sys2Proof.Machine Sys2Proof.Safety

-- One theorem after another: tests that wait for each other in threads of their own would each reserve memory.
set_option Elab.async false

/-! ## Small states -/

/-- A hub after its load: P0 holds the settings claim and HP0 (OUT, safe 0); HP1 and HP2 are IN, HP2 with a debounce window of
5 µs; HP4 is OUT with safe level 1 and no holder. -/
def base : State := { State.reset with
  load := none
  settings := { SettingsUnit.reset with store := .valid, holder := some 0 }
  pins := (((State.reset.pins.set 0 ⟨⟨.output, false, 0⟩, some 0, some false, none⟩).set 1
    ⟨⟨.input, false, 0⟩, none, none, none⟩).set 2 ⟨⟨.input, false, 5⟩, none, none, none⟩).set 4
    ⟨⟨.output, true, 0⟩, none, some true, none⟩
  watch := (State.reset.watch.set 1 (some ⟨none, false, false⟩)).set 2 (some ⟨none, false, false⟩) }

/-- The pulse of the example of 03_the_action_schedule.md, on HP0. -/
def pulse : Entry := ⟨0, 0, 5, .pulse 0 true 2000000, .timed (some ⟨5000000, 6⟩), true, some 2⟩

/-- A one-shot SET of HP0. -/
def setter : Entry := ⟨1, 0, 9, .set 0 true, .timed none, true, none⟩

/-- An endless EDGE entry on HP1. -/
def flap : Entry := ⟨2, 0, 1, .pulse 0 true 50000000, .edge 1 .rise 400000000 65535, true, none⟩

/-- A state with these entries. -/
def withEntries (armed : List Armed) (waiting : List Entry) (s : State) : State :=
  { s with sched := { s.sched with armed := armed, waiting := waiting } }

/-- A state at an HT and an RT. -/
def atTime (ht rt : Nat) (s : State) : State := { s with time := { s.time with ht := ht, rt := rt } }

/-- A discipline state with a window, a Tref of 1 s and the last reference point at 0. -/
def disciplined (d : DiscState) (w : List Int) (s : State) : State :=
  { s with disc := { s.disc with state := d, window := w, cfg := ⟨true, 1000000, .rise, true⟩ } }

/-- The schedule HELD. -/
def heldOf (s : State) : State := { s with sched := { s.sched with held := true } }

/-- A lease of P0. -/
def withLease (l : Lease) (ms : Nat) (s : State) : State :=
  { s with ports := s.ports.upd 0 fun q => { q with lease := l, leasePeriodMs := ms } }

/-- A store write of P0 in progress. -/
def writing : State := { base with settings := { base.settings with store := .writing [] 0 true, requester := some 0 } }

/-- A state whose P0 ring selects FAULT and DISCIPLINE records. -/
def selecting (s : State) : State :=
  { s with rings := s.rings.upd 0 fun g => { g with selFault := true, selDiscipline := true } }

/-- One record, and a ring full of it, of P1. -/
def oneRecord : Record := ⟨.claimLost none, 0, false, false, 0, 0⟩

def fullRing : State :=
  { base with rings := base.rings.upd 1 fun g => { g with records := List.replicate 32 oneRecord, selFault := true } }

/-- Notifications of P0 on, with V2 unmasked and every other vector masked. -/
def notified : State := { base with vectors := base.vectors.upd 0 fun n =>
  { n with enable := true, vecs := n.vecs.upd 2 fun c => { c with masked := false } } }

/-- The state that a command leads to. -/
def after (c : Instr) (s : State) : State :=
  match exec c s with
  | .next t => t
  | .fault _ => s
  | .refused _ => s

/-! ## WellFormed refuses what cannot be sent -/

theorem test_wf_identify : (Instr.identify 0 []).wf = true := by decide +kernel

theorem test_wf_arguments_too_long : (Instr.timeSet 0 (List.replicate 61 0)).wf = false := by decide +kernel

theorem test_wf_bad_frame_is_good : (Instr.badFrame 0 [0x01, 0x00, 0xC2] 0).wf = false := by decide +kernel

theorem test_wf_bad_frame_is_result_read : (Instr.badFrame 0 [0x00, 0x00] 0).wf = false := by decide +kernel

/-- A frame of more than 64 whole bytes can be sent and is not good (R184). -/
theorem test_wf_bad_frame_long : (Instr.badFrame 0 (List.replicate 65 1) 0).wf = true := by decide +kernel

theorem test_wf_bad_frame_trailing : (Instr.badFrame 0 [0x01] 8).wf = false := by decide +kernel

theorem test_wf_unknown_is_known : (Instr.unknownRequest 0 0x01 []).wf = false := by decide +kernel

theorem test_wf_unknown_is_zero : (Instr.unknownRequest 0 0x00 []).wf = false := by decide +kernel

theorem test_wf_unknown : (Instr.unknownRequest 0 0x77 []).wf = true := by decide +kernel

/-! ## Codes and frames -/

/-- 12_frame_and_record_formats.md, Example frame: the CRC-8 after each byte, and the frame of IDENTIFY. -/
theorem test_identify_frame : crc8 [0x01] = 0xF4#8 ∧ crc8 [0x01, 0x00] = 0xC2#8 ∧
    (Instr.identify 3 []).frame? = some (3, [0x01, 0x00, 0xC2]) ∧
    commandOfFrame 3 [0x01, 0x00, 0xC2] 0 false = .identify 3 [] := by decide +kernel

theorem test_frame_with_wrong_crc : commandOfFrame 3 [0x01, 0x00, 0xC3] 0 false = .badFrame 3 [0x01, 0x00, 0xC3] 0 := by
  decide +kernel

theorem test_no_table_bits : decodeTableWord 8 1 = none := by decide

set_option maxRecDepth 100000 in
theorem test_builtin_image_reads_back : readImage (imageOf .builtin) = some .builtin := by decide +kernel

set_option maxRecDepth 100000 in
theorem test_erased_image_is_invalid : readImage (List.replicate 128 0xFF) = none := by decide +kernel

/-! ## Hub time and discipline -/

/-- 01_hub_time.md: with F + S = 0 the increment is exactly 40 ns. -/
theorem test_increment_untrimmed : increment 0 0 = 40 * 4294967296 := by decide +kernel

theorem test_advance : (after .advance (atTime 100 7 base)).time = ⟨140, 0, 47, 0, 0⟩ := by decide +kernel

/-- 01_hub_time.md, the worked example, events 2 to 4. -/
theorem test_time_set_steps :
    let t := after (.timeSet 0 (beN 8 7260000000000)) (atTime 7200003000000 7195503000000 base)
    t.time = ⟨7260000000000, 0, 7195503000000, 0, 1⟩ ∧ (t.ports.get 0).result =
      ⟨.ok, 0x12, beN 8 7200003000000 ++ beN 8 7260000000000 ++ beN 2 1⟩ ∧ countOf t .timeStep = 1 := by decide +kernel

theorem test_time_set_backward :
    ((after (.timeSet 0 (beN 8 7260000000000)) (atTime 7260002000000 0 base)).ports.get 0).result =
      ⟨.backward, 0x12, beN 8 7260002000000⟩ := by decide +kernel

theorem test_time_set_without_claim :
    ((after (.timeSet 1 (beN 8 7300000000000)) base).ports.get 1).result = ⟨.notPermitted, 0x12, []⟩ := by decide +kernel

/-- 02_reference_discipline.md, the first sequence: F = −600, S = 150, TRACK. -/
theorem test_acquire_to_track :
    let t := after (.activeEdge .rise) (atTime 3999998800 1000000000 (disciplined .acquire [-3000, -2400, -1800] base))
    t.disc.lastE = -1200 ∧ t.disc.f = -600 ∧ t.disc.s = 150 ∧ t.disc.state = .track ∧ t.disc.window = [] := by
  decide +kernel

/-- 02_reference_discipline.md, the second sequence: F = −10,000, S = 0, a step of 2,020,000 ns. -/
theorem test_acquire_steps :
    let t := after (.activeEdge .rise)
      (atTime 3997980000 1000000000 (disciplined .acquire [-2050000, -2040000, -2030000] base))
    t.disc.lastE = -2020000 ∧ t.disc.f = -10000 ∧ t.disc.s = 0 ∧ t.disc.state = .acquire ∧ t.time.ht = 4000000000 ∧
      t.time.epoch = 1 ∧ (t.faults.capture.map (·.context)) = some (.stepAmount 2020000) := by decide +kernel

/-- 02_reference_discipline.md, loss: the third miss takes LOCKED to HOLDOVER and S to 0. -/
theorem test_third_miss_is_loss :
    let s := disciplined .locked [5] base
    let t := after .miss { s with disc := { s.disc with missCount := 2, f := -600, s := 20 } }
    t.disc.state = .holdover ∧ t.disc.missCount = 3 ∧ t.disc.f = -600 ∧ t.disc.s = 0 ∧ t.disc.window = [] := by
  decide +kernel

/-- R21, R124: the FAULT record of a loss from LOCKED has LOCKED set, and the DISCIPLINE record follows it. -/
theorem test_loss_reports_in_order :
    let s := disciplined .locked [5] (selecting base)
    let t := after .miss { s with disc := { s.disc with missCount := 2 } }
    ((t.rings.get 0).records.map fun r => (r.body, r.locked)) =
      [(.fault .refLost .minor, true), (.discipline .locked .holdover 0, false)] := by decide +kernel

/-- R31, R32: REF CONFIGURE keeps last e, and undoes it for an edge taken first at the same RT. -/
theorem test_ref_configure_undoes_the_edge :
    let e := after (.activeEdge .rise) (atTime 1000000300 500000000 (disciplined .search [] base))
    let c := after (.refConfigure 0 ([1#8] ++ beN 4 1000000 ++ [0, 1]))
    e.disc.lastE = 300 ∧ (c e).disc.lastE = 0 ∧ (c (atTime 0 500000040 e)).disc.lastE = 300 := by decide +kernel

/-! ## The schedule -/

/-- 03_the_action_schedule.md, event 1: admitted in slot 0. -/
theorem test_schedule_at :
    let t := after (.scheduleAt 0 ([5, 1, 7] ++ beN 8 1010000000 ++ [0, 1] ++ beN 4 2000000 ++ beN 8 5000000 ++ beN 2 6 ++ [2]))
      base
    t.sched.armed = [⟨pulse, 1010000000, .lead⟩] ∧ (t.ports.get 0).result = ⟨.ok, 0x20, [0]⟩ := by decide +kernel

/-- 03_the_action_schedule.md, event 7: the late TRAIL, its record, and the catch-up with k = 5. -/
theorem test_resume_catches_up :
    let t := after (.resume 0 [])
      (heldOf (atTime 1031500000 0 (withEntries [⟨pulse, 1012000000, .trail 0⟩] [] base)))
    t.sched.armed = [⟨{ pulse with kind := .timed (some ⟨5000000, 1⟩) }, 1035000000, .lead⟩] ∧
      (t.rings.get 0).records = [⟨.fired 5 0 .trail 19500000 4 1, 0, true, false, 1031500000, 0⟩] ∧
      countOf t .lateFire = 1 ∧ (t.ports.get 0).result = ⟨.ok, 0x26, [1]⟩ := by decide +kernel

/-- R46, R64: RESUME takes two overdue entries in list order, each with its own lateness. -/
theorem test_resume_takes_each :
    let s := heldOf (atTime 1000 0 (withEntries [⟨setter, 900, .lead⟩, ⟨{ setter with slot := 2, tag := 8 }, 950, .lead⟩] [] base))
    let t := after (.resume 0 []) s
    (t.rings.get 0).records.map (·.body) = [.fired 9 1 .lead 100 0 0, .fired 8 2 .lead 50 0 0] ∧ t.sched.armed = [] ∧
      (t.ports.get 0).result = ⟨.ok, 0x26, [2]⟩ := by decide +kernel

/-- 03_the_action_schedule.md, event 5: at equal dues the one inserted first expires first. -/
theorem test_equal_dues :
    let t := after .expiry (atTime 1010000000 0 (withEntries [⟨pulse, 1010000000, .lead⟩, ⟨setter, 1010000000, .lead⟩] [] base))
    t.sched.armed = [⟨pulse, 1012000000, .trail 0⟩] ∧ (t.pins.get 0).driven = some true ∧
      (t.rings.get 0).records = [⟨.fired 9 1 .lead 0 0 0, 0, false, false, 1010000000, 0⟩] := by decide +kernel

/-- 06_edge_armed_entries.md, event 1: the edge arms the entry at its stamp plus the offset. -/
theorem test_edge_arms :
    let t := after (.transition 1 true) (atTime 5000000000 0 (withEntries [] [flap] base))
    t.sched.armed = [⟨flap, 5400000000, .lead⟩] ∧ t.sched.waiting = [] := by decide +kernel

/-- 06_edge_armed_entries.md, event 5: the TRAIL sends an endless entry back to its queue. -/
theorem test_edge_entry_rearms :
    let t := after .expiry (atTime 5450000000 0 (withEntries [⟨flap, 5450000000, .trail 0⟩] [] base))
    t.sched.armed = [] ∧ t.sched.waiting = [flap] ∧
      (t.rings.get 0).records = [⟨.fired 1 2 .trail 0 0 65535, 0, false, false, 5450000000, 0⟩] := by decide +kernel

/-! ## Pins, capture, rings, vectors, faults -/

/-- R102, R201: a mode byte of 4 or more is BAD_ARGUMENT. -/
theorem test_subscribe_mode :
    ((after (.subscribe 1 [1, 3]) base).ports.get 1).result.status = .ok ∧
      ((after (.subscribe 1 [1, 4]) base).ports.get 1).result.status = .badArgument := by decide +kernel

/-- 04_output_pins_and_claims.md, event 3: a mismatch is PIN_CONTENTION, FAULTn falls and a hold notice waits; the notice holds the
schedule. -/
theorem test_contention_holds :
    let s := atTime 0 2800 { base with pins := base.pins.upd 0 fun c => { c with check := some 2800 } }
    let t := after (.contentionCheck 0 true) s
    countOf t .pinContention = 1 ∧ t.faults.faultnLow = true ∧ t.sched.held = false ∧
      (after .holdNotice t).sched.held = true := by decide +kernel

/-- R87: a drive that changes the level starts the check at RT + 2,000, whatever makes it; an equal level starts none. -/
theorem test_drives_start_the_check :
    let s := atTime 0 80000000 (withLease (.running 80000000) 50
      { base with pins := base.pins.upd 0 fun c => { c with driven := some true, check := none } })
    let check := fun (c : Instr) (s : State) => ((after c s).pins.get 0).check
    check (.hold 0 []) s = some 80002000 ∧ check (.pinRelease 0 [0]) s = some 80002000 ∧
      check (.leaseExpiry 0) s = some 80002000 ∧ check (.portReset 0 []) s = some 80002000 ∧
      check (.prstnFall 0) s = some 80002000 ∧ check (.hold 0 []) base = none ∧ check (.hubReset 0 []) s = none ∧
      check (.pinConfigure 0 [0, 2, 0, 0, 0] true) (heldOf s) = some 80002000 ∧
      check (.cancel 0 [5]) (withEntries [⟨pulse, 80000001, .trail 0⟩] [] s) = some 80002000 := by decide +kernel

/-- 05_input_capture.md, event 8: a glitch is over at the window's end. -/
theorem test_glitch :
    let t := after (.transition 2 true) (atTime 10 10 base)
    (t.watch.get 2).map (·.window) = some (some ⟨5010, 10, 0, false, false⟩) ∧
      (after (.debounceWindowEnd 2 false) (atTime 5010 5010 t)).watch.get 2 = some ⟨none, false, false⟩ := by decide +kernel

/-- 07_event_rings.md, event 4: the first drop begins the episode, and the FAULT record it brings is dropped too. -/
theorem test_overflow_episode :
    let t := post 1 oneRecord fullRing
    (t.rings.get 1).pendingDrops = 2 ∧ countOf t .ringOverflow = 1 ∧ (t.rings.get 1).records.length = 32 := by decide +kernel

/-- 12_frame_and_record_formats.md, The event record: the 24 bytes of each kind, written out from R204 and R201 (unused flag bits 0:
notes/assumptions/30.md). -/
theorem test_record_bytes :
    let bytes := fun (b : RecordBody) => recordBytes 3 ⟨b, 9, true, true, 0x0102030405060708, 0x0A0B⟩
    let row := fun (kind a b c : Byte) (tail : List Byte) =>
      [24 + kind, 9, 3, a, 1, 2, 3, 4, 5, 6, 7, 8, 0x0A, 0x0B, b, c] ++ tail
    let zeros : List Byte := [0, 0, 0, 0, 0, 0, 0, 0]
    bytes (.capture 23 .fall) = row 1 23 1 0 zeros ∧
      bytes (.fired 0xAB 63 .trail 0x01020304 0x0506 0x0708) = row 2 0xAB 63 1 [1, 2, 3, 4, 5, 6, 7, 8] ∧
      bytes (.cancelled 7 5 .released) = row 3 7 5 1 zeros ∧ bytes (.claimLost (some 4)) = row 4 4 0 0 zeros ∧
      bytes (.claimLost none) = row 4 0xFF 0 0 zeros ∧
      bytes (.discipline .locked .holdover (-2)) = row 5 4 5 0 [0xFF, 0xFF, 0xFF, 0xFE, 0, 0, 0, 0] ∧
      bytes (.fault .storeWriteFail .major) = row 6 10 1 0 zeros ∧ bytes (.storeDone false) = row 7 0 0 1 zeros := by
  decide +kernel

/-- R130, R204: four records, oldest first, with the records behind each; the last one's are the count left. -/
theorem test_event_read :
    let s := { base with rings := base.rings.upd 1 fun g =>
      { g with records := (List.range 6).map fun k => { oneRecord with ht := k } } }
    let d := ((after (.eventRead 1 [4]) s).ports.get 1).result.data
    [d.getD 0 0, d.getD 24 0, d.getD 48 0, d.getD 72 0] = [4 + 8 * 5, 4 + 8 * 4, 4 + 8 * 3, 4 + 8 * 2] ∧
      [d.getD 11 0, d.getD 35 0, d.getD 59 0, d.getD 83 0] = [0, 1, 2, 3] ∧ d.length = 96 ∧
      ((after (.eventRead 1 [4]) s).rings.get 1).records.length = 2 := by decide +kernel

/-- 08_notification_vectors.md, events 3 and 5: the function mask holds back, and an acknowledgement takes the held raises. -/
theorem test_function_mask :
    let t := after (.notifyControl 0 [1, 1]) (raiseVec 0 2 (raiseVec 0 2 notified))
    (t.vectors.get 0).vecs.get 2 = ⟨.pending, 2, false⟩ ∧ (t.vectors.get 0).notifynLow = false ∧
      ((after (.vectorAck 0 [2]) t).ports.get 0).result = ⟨.ok, 0x49, [2, 1, 2]⟩ := by decide +kernel

/-- 09_fault_log.md, events 6 and 7: a masked major kind is counted, and unmasking it pulls FAULTn low. -/
theorem test_masked_major :
    let s := { base with faults := { base.faults with cells := base.faults.cells.upd 10 fun c => { c with masked := true } } }
    let t := occur .storeWriteFail none .none s
    countOf t .storeWriteFail = 1 ∧ t.faults.faultnLow = false ∧ t.faults.capture = none ∧
      (after (.faultConfigure 0 (List.replicate 11 0 ++ [0, 0, 0, 0, 0, 0, 0, 0, 1, 1, 1, 1])) t).faults.faultnLow = true := by
  decide +kernel

/-! ## Store and ports -/

/-- 10_settings_and_the_settings_store.md, events 8 and 9: the write, and its failure. -/
theorem test_write_fails :
    let t := after (.storeWrite 0 []) base
    let u := after (.storeCompletion false) (atTime 9000000 9000000 t)
    t.settings.store.isWriting = true ∧ u.settings.store = .invalid ∧ u.settings.image.settings = none ∧
      countOf u .storeWriteFail = 1 ∧ (u.rings.get 0).records.map (·.body) = [.storeDone false] := by decide +kernel

/-- 11_master_ports_and_leases.md, events 3 and 5: the teardown and LAPSED. -/
theorem test_lease_runs_out :
    let t := after (.leaseExpiry 0) (atTime 80000000 80000000
      (withLease (.running 80000000) 50 (withEntries [⟨pulse, 90000000, .lead⟩] [] base)))
    (t.ports.get 0).lease = .expired ∧ t.sched.armed = [] ∧ (t.pins.get 0).holder = none ∧ t.settings.holder = none ∧
      (t.rings.get 0).records.map (·.body) = [.cancelled 5 0 .lease, .claimLost (some 0), .claimLost none] ∧
      ((after (.pinClaim 0 [0]) t).ports.get 0).result = ⟨.lapsed, 0x31, []⟩ := by decide +kernel

set_option maxRecDepth 100000 in
theorem test_power_on_load :
    let t := after (.settingsLoad ⟨0, 0⟩) State.reset
    t.load = none ∧ t.settings.store = .invalid ∧ countOf t .storeInvalid = 1 ∧ t.faults.faultnLow = true ∧
      t.sched.holdNotices = 1 := by decide +kernel

set_option maxRecDepth 100000 in
/-- A run from power-on whose commands come in their places: the load, its hold notice, an advance, a request. -/
theorem test_run_fits :
    runFits 4 { State.reset with pending := [.settingsLoad ⟨0, 0⟩, .holdNotice, .advance, .identify 0 []] } = true := by
  decide +kernel

/-- R187: after the CRC-8 SDO_p sends ones, and the receiver is idle at the end of the frame. -/
theorem test_result_read :
    let t := after (.resultRead 0) (after (.timeReadScaled 0 [33]) base)
    (t.ports.get 0).receiver = .idle ∧ (t.ports.get 0).sdo.length = 6 ∧
      (t.ports.get 0).sdo.take 5 = [0xFF, b1 Status.badArgument.code, 0x11, 0x04, 0] ∧
      (t.ports.get 0).sdoByte 6 = 0xFF := by decide +kernel

/-- R195: a frame begun before the rise of PRSTn_p is missed, and the next is received. -/
theorem test_missed_frame :
    let r := after (.prstnRise ⟨0, true⟩) (after (.prstnFall 0) base)
    let m := after (.identify 0 []) r
    r.takesFrames 0 = false ∧ (m.ports.get 0).result = .empty ∧ m.takesFrames 0 = true ∧
      (after (.prstnRise ⟨0, false⟩) (after (.prstnFall 0) base)).takesFrames 0 = true := by decide +kernel

/-- R199: after HUB RESET the load is owed before the next advance; a frame begun before it is missed. -/
theorem test_load_is_owed_at_once :
    let h := after (.hubReset 0 []) base
    h.load = some (.hubReset true) ∧ fits .advance h = false ∧ fits (.settingsLoad ⟨0, 1⟩) h = true := by decide +kernel

set_option maxRecDepth 100000 in
theorem test_frame_begun_before_the_load :
    let t := after (.settingsLoad ⟨0, 1⟩) (after (.hubReset 0 []) base)
    t.takesFrames 0 = false ∧ t.takesFrames 1 = true := by decide +kernel

/-! ## Witnesses -/

/-- A state that meets every invariant and is not empty: three live entries, a claim, a running lease, an ACTIVE vector. -/
def rich : State :=
  withLease (.running 80000000) 50
    (raiseVec 0 2 (withEntries [⟨pulse, 1012000000, .trail 0⟩, ⟨setter, 1013000000, .lead⟩] [flap] notified))

/-- The state `rich` with its pulse on HP0 in TRAIL and the levels that go with it, about to take an expiry. -/
def richNow : State := { atTime 1012000000 0 rich with
  pins := rich.pins.upd 0 fun c => { c with driven := some true }
  pending := [.expiry] }

theorem witness_rich_meets_the_invariants :
    FaultLineTied richNow ∧ VectorsTied richNow ∧ RingsBounded richNow ∧ ArmedSorted richNow ∧ PinsTied richNow ∧
      SlotsTied richNow ∧ WatchTied richNow ∧ LeasesTied richNow ∧ DisciplineTied richNow := by
  refine ⟨?_, ?_, ?_, ?_, ?_, ?_, ?_, ?_, ?_⟩ <;> decide +kernel

/-- `EveryStepKeeps…`, `ArmedListStaysInDueOrder`, `StepRunsTheFrontCommand`: a step of it, and idling. -/
theorem witness_rich_steps : (∃ t, step richNow = .next t) ∧ richNow.pending = [.expiry] ∧ base.pending = [] :=
  ⟨⟨_, rfl⟩, rfl, rfl⟩

/-- A state of which R45 holds in RUN and whose next command is not an advance; every receiver idle, one frame missed. -/
theorem witness_rich_dues_ahead :
    let m := after (.prstnRise ⟨3, true⟩) (after (.prstnFall 3) rich)
    DuesAhead { rich with pending := [.transition 1 true] } ∧ ArmedSorted rich ∧ rich.sched.held = false ∧
      rich.sched.armed ≠ [] ∧ DuesAhead (heldOf richNow) ∧ ReceiversTied m ∧ (m.ports.get 3).missed = true := by
  refine ⟨?_, ?_, ?_, ?_, ?_, ?_, ?_⟩ <;> decide +kernel

theorem witness_SupplyEventsGivePowerOnValues : base.powered = true ∧ base.settings.store.isWriting = false ∧
    writing.powered = true ∧ writing.settings.store.isWriting = true := by decide +kernel

/-- A reset state whose image holds the built-in defaults. -/
def imaged (k : LoadKind) : State :=
  { State.reset with load := some k, settings := { SettingsUnit.reset with image := .bytes (imageOf .builtin) } }

set_option maxRecDepth 100000 in
theorem witness_SettingsLoadPutsTheSettingsInPlace :
    (∀ k, (imaged k).load = some k ∧ (imaged k).powered = true ∧ (imaged k).resetnLow = false) ∧
      (imaged (.hubReset true)).settings.image.settings = some .builtin ∧ State.reset.settings.image.settings = none ∧
      State.reset.load = some .powerOn ∧ State.reset.faults.capture = none := by
  refine ⟨fun k => ⟨rfl, rfl, rfl⟩, ?_, ?_, ?_, ?_⟩ <;> decide +kernel

theorem witness_ImageOfSettingsReadsBack : InRange .builtin := by
  constructor <;> decide +kernel

theorem witness_FrameOfRequestReadsBack : (Instr.leaseSet 1 [0, 10]).wf = true ∧
    (Instr.leaseSet 1 [0, 10]).frame? = some (1, requestFrame 0x04 [0, 10]) := by decide +kernel

theorem witness_FramesWithoutARequest : base.takesFrames 0 = true ∧ (Instr.unknownRequest 0 0xFF []).wf = true ∧
    (Instr.badFrame 0 [] 0).wf = true ∧ (Instr.badFrame 0 (List.replicate 64 1) 7).wf = true := by decide +kernel

/-- A request on a port that takes frames: of a fixed length and of another, needing the claim and without it. -/
theorem witness_RefusedRequestChangesOnlyTheBuffer : base.takesFrames 1 = true ∧
    (Instr.hold 1 []).wf = true ∧ (Instr.hold 1 []).request? = some (1, 0x25, []) ∧ requestLength 0x25 = some 0 ∧
    needsSettings 0x25 = true ∧ base.settings.holder ≠ some 1 ∧
    ((after (.hold 1 []) base).ports.get 1).result.status = .notPermitted ∧
    ((after (.portReset 1 []) base).ports.get 1).result.status = .none ∧
    ((after (.identify 1 []) base).ports.get 1).result.status = .ok := by decide +kernel

theorem witness_PortInResetReceivesNoFrame :
    ({ base with powered := false } : State).powered = false ∧ (after .resetnFall base).resetnLow = true ∧
      State.reset.load ≠ none ∧ ((after (.prstnFall 0) base).ports.get 0).prstnLow = true ∧
      ((after (.prstnRise ⟨0, true⟩) (after (.prstnFall 0) base)).ports.get 0).missed = true ∧
      (base.ports.get 0).receiver = .idle ∧ (base.ports.get 0).missed = false ∧
      (Instr.identify 0 []).request? = some (0, 0x01, []) := by decide +kernel

theorem witness_AdvanceAddsTheTrimmedIncrement (f s : Int) (hf : f = -200000 ∨ f = 0 ∨ f = 200000)
    (hs : s = -50000 ∨ s = 0 ∨ s = 50000) :
    let b := { base with disc := { base.disc with f := f, s := s } }
    b.powered = true ∧ -200000 ≤ b.disc.f ∧ b.disc.f ≤ 200000 ∧ -50000 ≤ b.disc.s ∧ b.disc.s ≤ 50000 := by
  refine ⟨rfl, ?_⟩
  simp only
  omega

theorem witness_TimeRunsForward : (atTime (2 ^ 64 - 1) (2 ^ 64 - 1) base).time.ht ≤ 2 ^ 64 - 1 ∧
    (∃ t, exec .advance (atTime (2 ^ 64 - 1) (2 ^ 64 - 1) base) = .next t) := ⟨Nat.le_refl _, _, rfl⟩

/-- Each check of R12 at a boundary. -/
theorem witness_TimeSetChecksInOrder :
    base.takesFrames 0 = true ∧ ([] : List Byte).length ≠ 8 ∧ (beN 8 0).length = 8 ∧ base.settings.holder ≠ some 1 ∧
      base.settings.holder = some 0 ∧ 2 ^ 62 ≤ be (beN 8 (2 ^ 62)) ∧ be (beN 8 (2 ^ 62 - 1)) < 2 ^ 62 ∧
      (disciplined .acquire [] base).disc.state ≠ .freerun ∧ (disciplined .acquire [] base).disc.state ≠ .search ∧
      base.disc.state = .freerun ∧ be (beN 8 4) < (atTime 5 0 base).time.ht ∧ (atTime 5 0 base).time.ht ≤ be (beN 8 5) := by
  decide +kernel

theorem witness_TimeSetStepsHubTime : base.takesFrames 0 = true ∧ base.settings.holder = some 0 ∧ 2 ^ 62 - 1 < 2 ^ 62 ∧
    base.disc.state = .freerun ∧ (disciplined .search [] base).disc.state = .search ∧ 5 = (atTime 5 0 base).time.ht ∧
    (atTime 5 0 base).time.ht < 6 ∧ (heldOf base).sched.held = true ∧ base.sched.held = false ∧
    ArmedSorted (withEntries [⟨setter, 6, .lead⟩] [] base) := by decide +kernel

/-- Accepted at exactly Tref/2, a runt 1 ns before it, and neither in FREERUN. -/
theorem witness_ActiveEdgeIsAcceptedOrARunt :
    let s := atTime 0 500000000 (disciplined .search [] base)
    let r := atTime 0 499999999 (disciplined .search [] base)
    s.powered = true ∧ s.disc.state ≠ .freerun ∧ s.disc.cfg.edge = .rise ∧
      s.disc.cfg.trefNs / 2 ≤ s.time.rt - s.disc.refPoint ∧ r.disc.firstEdge = false ∧
      r.time.rt - r.disc.refPoint < r.disc.cfg.trefNs / 2 ∧ base.disc.state = .freerun ∧ s.disc.cfg.edge ≠ .fall := by
  decide +kernel

theorem witness_AcceptedEdgeFollowsTheTransitionTable :
    let s := atTime 999999499 1000000000 (disciplined .locked [] base)
    s.powered = true ∧ s.disc.state ≠ .freerun ∧ s.disc.cfg.trefNs / 2 ≤ s.time.rt - s.disc.refPoint ∧
      s.disc.profile.lockOut < (phaseError s.time.ht s.disc.cfg.trefNs).natAbs ∧
      (disciplined .holdover [] base).disc.state = .holdover := by decide +kernel

/-- A change of state that is reported: at an UNLOCK, at a second edge of a SEARCH, at a loss and at a REF CONFIGURE, for a ring that
selects DISCIPLINE and has the room. -/
theorem witness_ChangesAreReported :
    let l := disciplined .locked [] (selecting base)
    let u := atTime 999999499 1000000000 l
    let f := atTime 0 1000000000 (disciplined .search [] (selecting base))
    let f1 := { f with disc := { f.disc with pairCount := 1 } }
    let m := { l with disc := { l.disc with missCount := 2 } }
    let room := (l.rings.get 0).records.length + 3 ≤ 32 ∧ (l.rings.get 0).selDiscipline = true ∧
      (l.rings.get 1).selDiscipline = false
    room ∧ nextDiscState u.disc (phaseError u.time.ht u.disc.cfg.trefNs) = .track ∧ u.disc.state = .locked ∧ (after (.activeEdge .rise) f1).disc.state = .acquire ∧
      (after .miss m).disc.state = .holdover ∧ m.faults.capture = none ∧ (m.faults.cells.get 0).masked = false ∧
      (m.faults.cells.get 0).count = 0 ∧ (m.rings.get 0).selFault = true ∧
      (after (.refConfigure 0 ([0#8] ++ beN 4 1000000 ++ [0, 1])) l).disc.state = .freerun := by decide +kernel

/-- A window of three in ACQUIRE, with and without the step, and of fifteen in TRACK and LOCKED. -/
theorem witness_WindowEndSetsTheTrims :
    let a := atTime 998999999 1000000000 (disciplined .acquire [1, 2, 3] base)
    let l := atTime 1000000500 1000000000 (disciplined .locked (List.replicate 15 7) base)
    a.powered = true ∧ a.disc.window = [1, 2, 3] ∧ a.disc.cfg.trefNs / 2 ≤ a.time.rt - a.disc.refPoint ∧
      phaseError a.time.ht a.disc.cfg.trefNs < -(a.disc.profile.stepTh : Int) ∧ a.disc.cfg.stepEnable = true ∧
      l.disc.window = 7 :: List.replicate 14 7 ∧ (phaseError l.time.ht l.disc.cfg.trefNs).natAbs ≤ l.disc.profile.lockOut ∧
      (phaseError l.time.ht l.disc.cfg.trefNs).natAbs ≤ l.disc.profile.acqIn ∧
      (disciplined .track (List.replicate 15 7) base).disc.state = .track := by decide +kernel

theorem witness_MissCountsAndTakesLoss :
    let s := disciplined .locked [5] base
    s.powered = true ∧ s.disc.state ≠ .freerun ∧ s.disc.nextMiss ≤ s.time.rt ∧ s.disc.missCount ≠ 2 ∧
      ({ s.disc with missCount := 2 } : Discipline).missCount = 2 := by decide +kernel

theorem witness_RefConfigureRestartsTheSearch : base.takesFrames 0 = true ∧ base.settings.holder = some 0 ∧
    1000 ≤ (⟨true, 1000, .fall, false⟩ : RefConfig).trefUs ∧ (⟨false, 1000000, .rise, true⟩ : RefConfig).trefUs ≤ 1000000 ∧
    base.disc.firstEdge = false ∧ base.disc.refPoint = base.time.rt ∧ base.disc.refPoint ≠ (atTime 0 1 base).time.rt := by
  decide +kernel

/-- `ResultReadShiftsOutTheBuffer`, `DisciplineStatusClearsOneFlag`, `EntryReadsChangeNothing`, `PinReleasePurgesAndDrivesSafe`,
`FaultRequestsClearAndConfigure` and the other requests of any port: `base` takes frames from P0, which holds the settings and
HP0, and from P1, which holds neither. -/
theorem witness_requests : base.takesFrames 0 = true ∧ base.takesFrames 1 = true ∧ base.settings.holder = some 0 ∧
    base.settings.holder ≠ some 1 ∧ base.settings.frozen = false ∧ base.settings.store.isWriting = false ∧
    (base.ports.get 0).lease ≠ .expired ∧ base.sched.held = false ∧ base.faults.faultnLow = false ∧
    (base.pins.get 0).holder = some 0 ∧ (base.pins.get 0).holder ≠ some 1 := by decide +kernel

/-- A pulse at both bounds of its width and period. -/
theorem witness_AtInRange : AtInRange (.pulse 0 true 100) (some ⟨1000, 0⟩) ∧
    AtInRange (.pulse 0 true 4294967295) (some ⟨2 ^ 40, 65535⟩) ∧ AtInRange (.set 0 true) none ∧
    ¬AtInRange (.pulse 0 true 99) none := by
  refine ⟨⟨?_, ?_⟩, ⟨?_, ?_⟩, ⟨?_, ?_⟩, ?_⟩
  · rintro pin level width ⟨⟩
    omega
  · rintro p ⟨⟩
    refine ⟨by decide, by decide, by decide, ?_⟩
    rintro pin level width ⟨⟩
    decide
  · rintro pin level width ⟨⟩
    omega
  · rintro p ⟨⟩
    refine ⟨by decide, by decide, by decide, ?_⟩
    rintro pin level width ⟨⟩
    decide
  · rintro pin level width ⟨⟩
  · rintro p ⟨⟩
  · intro h
    have := (h.1 0 true 99 rfl).1
    omega

theorem witness_ScheduleAtAdmitsAnEntry : Admissible 0 7 (.set 0 true) 0 base ∧
    base.takesFrames 0 = true ∧ (heldOf base).takesFrames 0 = true ∧ Admissible 0 7 (.set 0 true) 0 (heldOf base) ∧
    (heldOf base).sched.held = true ∧ base.time.ht < 1 ∧ 0 ≤ base.time.ht ∧ base.sched.held = false ∧
    (∀ b ∈ base.sched.armed, base.time.ht < b.due) := by
  have h : ∀ s : State, s.sched.live = [] → s.sched.holdings 0 = 0 → (s.pins.get 0).map.dir = .output →
      (s.pins.get 0).holder = some 0 → 0 < s.settings.quotas.get 0 → Admissible 0 7 (.set 0 true) 0 s := by
    intro s h1 h2 h3 h4 h5
    refine ⟨?_, by simp [h1], by simp [h1], fun sl h => absurd h (by simp), by omega⟩
    rintro k ⟨⟩
    exact ⟨h3, h4⟩
  refine ⟨h base ?_ ?_ ?_ ?_ ?_, ?_, ?_, h (heldOf base) ?_ ?_ ?_ ?_ ?_, ?_, ?_, ?_, ?_, ?_⟩ <;> decide +kernel

/-- Admissions in RUN with a due that has gone by: of a PULSE whose TRAIL due lies ahead, and is reached. -/
theorem witness_LateAdmissions :
    let s := atTime 1000 0 base
    s.takesFrames 0 = true ∧ s.sched.held = false ∧ (∀ b ∈ s.sched.armed, s.time.ht < b.due) ∧ 1000 ≤ s.time.ht ∧
      s.time.ht < 1000 + 100 ∧ 900 + 100 ≤ s.time.ht ∧
      ((after (.scheduleAt 0 (atBytes 7 (.pulse 0 true 100) 900 none true none)) s).rings.get 0).records.map (·.body) =
        [.fired 7 0 .trail 100 0 0] ∧
      (after (.scheduleAt 0 (atBytes 7 (.pulse 0 true 100) 1000 (some ⟨1000, 0⟩) true none)) s).sched.armed.map (·.phase) =
        [.trail 0] := by decide +kernel

/-- A state with a free slot below a live one, and the refusals: each clause of `ScheduleAtChecksInOrder`. -/
theorem witness_ScheduleAtChecksInOrder :
    let s := withEntries [⟨setter, 10, .lead⟩] [] base
    let no := fun (o : Port) => ({ s with settings := { s.settings with quotas := .fill 4 1 } } : State).settings.quotas.get o
    base.takesFrames 0 = true ∧ (2 : Nat) ^ 62 < 2 ^ 64 ∧ (base.pins.get 1).map.dir ≠ .output ∧
      (base.pins.get 4).map.dir = .output ∧ (base.pins.get 4).holder ≠ some 0 ∧ (base.pins.get 0).holder = some 0 ∧
      (∃ e ∈ s.sched.live, e.owner = 0 ∧ e.tag = 9) ∧ (∀ e ∈ s.sched.live, ¬(e.owner = 0 ∧ e.tag = 8)) ∧
      (∃ sl : Slot, ∀ e ∈ s.sched.live, e.slot ≠ sl) ∧ no 0 ≤ s.sched.holdings 0 ∧
      (∀ sl : Slot, ∃ e ∈ ((List.finRange 64).map fun i => ({ setter with slot := i } : Entry)), e.slot = sl) := by
  decide +kernel

theorem witness_EdgeEntriesQueueAndArmInOrder : (base.pins.get 1).map.dir = .input ∧ base.sched.queue 0 1 .rise = [] ∧
    (withEntries [] [flap] base).sched.queue 0 1 .rise = [flap] := by decide +kernel

/-- Each refusal of SCHEDULE ON EDGE, the ranges at their bounds. -/
theorem witness_OnEdgeRefusals :
    let on := fun (a : Action) (pin : Pin) (ed : Edge) (offset : Nat) => onEdgeBytes 5 a pin ed offset 65535 false (some 7)
    let st := fun (args : List Byte) (s : State) => ((after (.scheduleOnEdge 0 args) s).ports.get 0).result.status
    let s := withEntries [] [{ flap with tag := 6 }] base
    st (on .notify 1 .fall (2 ^ 40)) s = .ok ∧ st (on .notify 1 .fall (2 ^ 40 + 1)) s = .badArgument ∧
      st ((on .notify 1 .fall 0).set 3 24) s = .badArgument ∧ st ((on .notify 1 .fall 0).set 4 2) s = .badArgument ∧
      st ((on .notify 1 .fall 0).set 2 1) s = .badArgument ∧ st ((on .notify 1 .fall 0).set 15 8) s = .badArgument ∧
      st ((on .notify 1 .fall 0).set 1 3) s = .badArgument ∧ st ((on (.set 0 true) 1 .fall 0).set 15 24) s = .badArgument ∧
      st (on (.pulse 0 true 99) 1 .rise 0) s = .badArgument ∧ st (on (.pulse 0 true 100) 0 .rise 0) s = .wrongDirection ∧
      st (on (.set 3 true) 1 .rise 0) s = .wrongDirection ∧ st (on (.set 4 true) 1 .rise 0) s = .notOwner ∧
      st (on (.set 0 true) 1 .rise 0) (withEntries [] [{ flap with tag := 5 }] base) = .tagInUse ∧
      st (on (.set 0 true) 1 .rise 0) { s with settings := { s.settings with quotas := .fill 4 1 } } = .quota ∧
      st (on (.set 0 true) 1 .rise 0)
        (withEntries [] ((List.finRange 64).map fun i => { flap with slot := i, owner := 1 }) base) = .full := by
  decide +kernel

theorem witness_CatchUpPassesHubTime : (catchUp 1010000000 1031500000 ⟨5000000, 6⟩).skipped = 4 ∧
    (catchUp 1010000000 1031500000 ⟨5000000, 5⟩).after = .removed ∧
    (catchUp 1010000000 1031500000 ⟨5000000, 0⟩).after = .again 1035000000 (.timed (some ⟨5000000, 0⟩)) ∧
    (catchUp (2 ^ 64 - 1) (2 ^ 64 - 1) ⟨1000, 0⟩).after = .removed := by decide +kernel

theorem witness_ExpiryLeavesNoDueBehind : richNow.powered = true ∧ richNow.sched.held = false ∧ ArmedSorted richNow ∧
    PeriodsPositive richNow ∧ ∃ a ∈ richNow.sched.armed, a.due ≤ richNow.time.ht := by
  refine ⟨by decide +kernel, by decide +kernel, by decide +kernel, ?_, by decide +kernel⟩
  intro e he q hq
  have : e = pulse ∨ e = setter ∨ e = flap := by
    have hl : richNow.sched.live = [pulse, setter, flap] := by decide +kernel
    simpa [hl] using he
  rcases this with rfl | rfl | rfl <;> cases hq
  decide

/-- A sole entry of each kind that falls due: LEAD of a PULSE and of a SET, TRAIL of a PULSE. -/
theorem witness_ExpiryOfASoleEntry :
    let s := fun (e : Entry) (ph : Phase) => atTime 1010000049 0 (withEntries [⟨e, 1010000000, ph⟩] [] base)
    (∀ e ∈ [pulse, setter, flap], ∀ ph ∈ [Phase.lead, .trail 3], (s e ph).powered = true ∧ (s e ph).sched.held = false ∧
      (s e ph).sched.armed = [⟨e, 1010000000, ph⟩] ∧ 1010000000 ≤ (s e ph).time.ht ∧ (s e ph).time.ht < 1010000000 + 50 ∧
      ((s e ph).pins.get 0).map.dir = .output ∧ ((s e ph).rings.get 0).records.length < 32) ∧
    (∀ w ∈ [2000000, 50000000], 100 ≤ w ∧ w ≤ 4294967295 ∧ w ≤ 1010000000) ∧ 2000000 + 100 ≤ 5000000 := by
  decide +kernel

/-- A sole periodic TRAIL: on its last occurrence, before it, and endless. -/
theorem witness_ExpiryOfASolePeriodicEntry :
    let s := fun (n : Nat) =>
      atTime 1012000049 0 (withEntries [⟨{ pulse with kind := .timed (some ⟨5000000, n⟩) }, 1012000000, .trail 3⟩] [] base)
    (after .expiry (s 1)).sched.armed = [] ∧ (after .expiry (s 0)).sched.armed.map (·.due) = [1015000000] ∧
      (after .expiry (s 6)).sched.armed = [⟨{ pulse with kind := .timed (some ⟨5000000, 5⟩) }, 1015000000, .lead⟩] := by decide +kernel

theorem witness_CancelRemovesTheEntry :
    (∀ e ∈ richNow.sched.live, ¬(e.owner = 1 ∧ e.tag = 5)) ∧ (⟨pulse, 1012000000, .trail 0⟩ : Armed) ∈ richNow.sched.armed ∧
      (⟨setter, 1013000000, .lead⟩ : Armed) ∈ richNow.sched.armed ∧ flap ∈ richNow.sched.waiting ∧
      (richNow.sched.live.map fun e => (e.owner, e.tag)).Nodup ∧ richNow.takesFrames 0 = true := by decide +kernel

/-- Each refusal of SCHEDULE AT by its length, its due or a range, at the bounds. -/
theorem witness_ScheduleAtRefusals :
    let st := fun (args : List Byte) => ((after (.scheduleAt 0 args) base).ports.get 0).result.status
    let at_ := fun (a : Action) (due : Nat) (q : Option Periodic) => atBytes 5 a due q false (some 7)
    let set := at_ (.set 0 true) 50 none
    let long := at_ (.pulse 0 true 1000) 50 (some ⟨1100, 0⟩)
    st set = .ok ∧ st (set ++ [0]) = .badArgument ∧ st (set.set 1 3) = .badArgument ∧ st (set.set 2 10) = .badArgument ∧
      st (set.set 11 24) = .badArgument ∧ st (set.set 12 2) = .badArgument ∧ st (set.set 13 8) = .badArgument ∧
      st (at_ (.set 0 true) (2 ^ 62) none) = .badTime ∧ st ((at_ (.set 0 true) (2 ^ 62) none).set 12 2) = .badTime ∧
      st long = .ok ∧ st (at_ (.pulse 0 true 1001) 50 (some ⟨1100, 0⟩)) = .badArgument ∧
      st (at_ (.pulse 0 true 99) 50 none) = .badArgument ∧ st (at_ .notify 50 (some ⟨999, 0⟩)) = .badArgument ∧
      st (at_ .notify 50 (some ⟨2 ^ 40 + 1, 0⟩)) = .badArgument ∧ st (at_ .notify 50 (some ⟨2 ^ 40, 65535⟩)) = .ok := by
  decide +kernel

/-- Each refusal by range of the ring's, the vectors' and the pins' requests that carry one value. -/
theorem witness_RangeRefusals :
    let st := fun (c : Instr) => ((after c base).ports.get 0).result.status
    let masks : List Byte := List.replicate 8 1
    let classes : List Byte := List.replicate 6 7
    st (.vectorAck 0 [7]) = .ok ∧ st (.vectorAck 0 [8]) = .badArgument ∧ st (.notifyControl 0 [1, 1]) = .ok ∧
      st (.notifyControl 0 [2, 1]) = .badArgument ∧ st (.notifyControl 0 [1, 2]) = .badArgument ∧
      st (.vectorConfigure 0 (masks ++ classes)) = .ok ∧
      st (.vectorConfigure 0 ((masks ++ classes).set 7 2)) = .badArgument ∧
      st (.vectorConfigure 0 ((masks ++ classes).set 8 8)) = .badArgument ∧
      st (.vectorConfigure 0 ((masks ++ classes).set 13 8)) = .badArgument ∧ st (.ringConfigure 0 [31, 1, 1]) = .ok ∧
      st (.ringConfigure 0 [32, 1, 1]) = .badArgument ∧ st (.ringConfigure 0 [0, 2, 1]) = .badArgument ∧
      st (.ringConfigure 0 [0, 1, 2]) = .badArgument ∧ st (.pinRelease 0 [24]) = .badArgument ∧
      st (.pinRelease 0 []) = .badArgument := by decide +kernel

theorem witness_HoldDrivesTheSafeLevels :
    let s := { base with sched := { base.sched with holdNotices := 1 } }
    s.powered = true ∧ s.sched.holdNotices = 0 + 1 ∧ s.sched.held = false ∧ (heldOf s).sched.held = true := by decide +kernel

theorem witness_ResumeReturnsToRun :
    let s := heldOf (withEntries [⟨setter, 10, .lead⟩] [] base)
    s.takesFrames 0 = true ∧ s.settings.holder = some 0 ∧ s.faults.faultnLow = false ∧ s.sched.held = true ∧ ArmedSorted s ∧
      (∀ a ∈ s.sched.armed, s.time.ht < a.due) ∧
      ({ s.faults with faultnLow := true } : FaultLog).faultnLow = true := by decide +kernel

theorem witness_ValueRequestsSetTheirValue : Profile.builtin.inRange = true ∧
    Profile.builtin.lockIn < Profile.builtin.lockOut ∧ Profile.builtin.lockOut ≤ Profile.builtin.trkIn ∧
    Profile.builtin.trkIn < Profile.builtin.acqIn ∧ Profile.builtin.acqIn ≤ Profile.builtin.stepTh ∧
    (∀ o, base.sched.holdings o ≤ base.settings.quotas.get o) ∧ (base.pins.get 1).map.dir = .input ∧
    (base.pins.get 0).map.dir ≠ .input := by decide +kernel

/-- Each refusal of the settings holder's requests, the ranges at their bounds. -/
theorem witness_ValueRefusals :
    let st := fun (c : Instr) (s : State) => ((after c s).ports.get 0).result.status
    let ref := fun (e tref edge step : Nat) => Instr.refConfigure 0 ([b1 e] ++ beN 4 tref ++ [b1 edge, b1 step])
    let limits := fun (q : Nat) (ms : Nat) => Instr.portLimitsSet 0 ([b1 q, 16, 16, 16] ++ beN 2 ms ++ beN 2 0 ++ beN 4 0)
    let profile := fun (v : List Nat) => Instr.disciplineProfile 0 (v.flatMap (beN 4))
    let s := withEntries [⟨setter, 10, .lead⟩] [] base
    st (ref 1 1000 1 1) base = .ok ∧ st (ref 2 1000 1 1) base = .badArgument ∧ st (ref 1 999 1 1) base = .badArgument ∧
      st (ref 1 1000001 1 1) base = .badArgument ∧ st (ref 1 1000 2 1) base = .badArgument ∧
      st (ref 1 1000 1 2) base = .badArgument ∧
      st (profile [1, 2, 2, 3, 100000000]) base = .ok ∧ st (profile [0, 2, 2, 3, 3]) base = .badArgument ∧
      st (profile [1, 2, 2, 3, 100000001]) base = .badArgument ∧ st (profile [2, 2, 2, 3, 3]) base = .badArgument ∧
      st (profile [1, 3, 2, 3, 3]) base = .badArgument ∧ st (profile [1, 2, 2, 2, 3]) base = .badArgument ∧
      st (profile [1, 2, 2, 3, 2]) base = .badArgument ∧
      st (.scheduleConfigure 0 (beN 4 1000001)) base = .badArgument ∧
      st (.pinConfigure 0 [3, 1, 1, 3, 255] true) base = .ok ∧ st (.pinConfigure 0 [24, 1, 1, 0, 0] true) base = .badArgument ∧
      st (.pinConfigure 0 [3, 3, 1, 0, 0] true) base = .badArgument ∧ st (.pinConfigure 0 [3, 1, 2, 0, 0] true) base = .badArgument ∧
      st (.pinConfigure 0 [3, 1, 1, 4, 0] true) base = .badArgument ∧
      st (limits 16 10) base = .ok ∧ st (limits 17 10) base = .badArgument ∧ st (limits 16 9) base = .badArgument ∧
      st (limits 16 60001) base = .badArgument ∧ st (limits 0 0) s = .inUse ∧
      st (limits 0 0) { s with settings := { s.settings with frozen := true } } = .frozen := by decide +kernel

theorem witness_PinConfigureWritesTheMap :
    ({ base.settings with frozen := true } : SettingsUnit).frozen = true ∧ (base.pins.get 0).map.dir = .output ∧
      (base.pins.get 0).holder ≠ none ∧ (base.pins.get 3).map.dir = .unused ∧ (base.pins.get 3).holder = none ∧
      (∀ q, (base.subs.get q).get 3 = .none) ∧ base.sched.live = [] ∧ (base.pins.get 4).holder = none := by decide +kernel

theorem witness_ClaimsAreGrantedOneAtATime :
    ((withLease .expired 50 base).ports.get 0).lease = .expired ∧ (base.pins.get 0).holder = some 0 ∧ (0 : Port) ≠ 1 ∧
      (base.pins.get 1).map.dir ≠ .output ∧ (base.pins.get 4).map.dir = .output ∧ (base.pins.get 4).holder = none ∧
      ({ base.settings with holder := none } : SettingsUnit).holder = none ∧ writing.settings.store.isWriting = true ∧
      24 ≤ fld [24] 0 1 := by decide +kernel

/-- A release and a lease expiry with room for their records: two entries of P0 on HP0, one of them WAITING. -/
theorem witness_PurgesWithRoom :
    let s := atTime 0 80000000 (withLease (.running 80000000) 50 (withEntries [⟨setter, 10, .lead⟩] [flap] base))
    entriesOnPin 0 0 s.sched = [setter, flap] ∧ (s.rings.get 0).records.length + 2 ≤ 32 ∧
      leaseRecords 0 s = [.cancelled 9 1 .lease, .cancelled 1 2 .lease, .claimLost (some 0), .claimLost none] ∧
      ((after (.pinRelease 0 [0]) s).rings.get 0).records.map (·.body) = [.cancelled 9 1 .released, .cancelled 1 2 .released] ∧
      ((after (.leaseExpiry 0) s).rings.get 0).records.map (·.body) = leaseRecords 0 s ∧
      (s.rings.get 0).records.length + 2 ≤ (after (.ringConfigure 0 [2, 0, 0]) s |>.rings.get 0).mark ∧
      (notified.vectors.get 0).enable = true := by decide +kernel

theorem witness_PinWriteDrivesTheLevel : 24 ≤ fld [24, 0] 0 1 ∧ 2 ≤ fld [0, 2] 1 1 ∧ (base.pins.get 0).holder = some 0 ∧
    (base.pins.get 0).driven = some false ∧ (heldOf base).sched.held = true := by decide +kernel

theorem witness_StateReadsChangeNothing : ((withLease (.running 80000000) 50 base).ports.get 0).lease = .running 80000000 ∧
    (base.ports.get 0).lease = .none ∧ ((withLease .expired 50 base).ports.get 0).lease = .expired := by decide +kernel

theorem witness_ContentionCheckComparesLevels :
    let s := { base with pins := base.pins.upd 0 fun c => { c with check := some 2000 } }
    s.powered = true ∧ (s.pins.get 0).check = some 2000 ∧ s.time.rt < 2000 ∧ 2000 ≤ (atTime 0 2000 s).time.rt ∧
      (s.pins.get 0).driven = some false := by decide +kernel

theorem witness_CaptureEventsConfirmEdges :
    let t := after (.transition 2 true) base
    base.powered = true ∧ base.watch.get 1 = some ⟨none, false, false⟩ ∧ (base.pins.get 1).map.debounceUs = 0 ∧
      base.watch.get 2 = some ⟨none, false, false⟩ ∧ (base.pins.get 2).map.debounceUs ≠ 0 ∧
      t.watch.get 2 = some ⟨some ⟨5000, 0, 0, false, false⟩, false, true⟩ ∧ t.time.rt < 5000 ∧
      5000 ≤ (atTime 0 5000 t).time.rt ∧
      (((after (.subscribe 1 [1, 1]) base).subs.get 1).get 1).includes (Edge.ofLevel true) = true := by decide +kernel

/-- A subscriber with room, with a full ring, and a port without the subscription. -/
theorem witness_CapturedBySubscribers :
    let s := after (.subscribe 1 [1, 1]) (after (.subscribe 2 [1, 2]) base)
    let full := { s with rings := fullRing.rings }
    let t := after (.transition 1 true) s
    captures (t.rings.get 1).records = 1 ∧ (t.rings.get 2).records = [] ∧ (t.rings.get 3).records = [] ∧
      (s.rings.get 2).selFault = false ∧ captures ((after (.transition 1 true) full).rings.get 1).records = 0 := by
  decide +kernel

/-- Edges that arm: their due ahead, and with an offset of 0 reached at the edge itself, in RUN and in HELD. -/
theorem witness_ConfirmedEdgesArm :
    let now := { flap with kind := .edge 1 .rise 0 0, action := .set 0 true }
    let s := withEntries [] [flap, { now with slot := 3, tag := 3 }] base
    let u := withEntries [] [now] base
    (after (.transition 1 true) s).sched.armed = [⟨flap, 400000000, .lead⟩] ∧ ArmedSorted s ∧
      (after (.transition 1 true) u).sched.live = [] ∧ (after (.transition 1 true) (heldOf u)).sched.armed.length = 1 := by
  decide +kernel

theorem witness_RingAppendsOrDrops : (base.rings.get 1).records.length < 32 ∧ 32 ≤ (fullRing.rings.get 1).records.length ∧
    (fullRing.rings.get 1).pendingDrops = 0 ∧ (∃ t b, ringPut 1 oneRecord fullRing = (t, b)) :=
  ⟨by decide +kernel, by decide +kernel, by decide +kernel, _, _, rfl⟩

/-- The first drop of an episode: its RING_OVERFLOW occurrence, and with a second full ring that selects FAULT one more. -/
theorem witness_RingOverflowOccurrences :
    let both := { fullRing with rings := fullRing.rings.upd 2 fun g =>
      { g with records := List.replicate 32 oneRecord, selFault := true } }
    let r := fun s => ringPut 1 oneRecord s
    (r fullRing).2 = true ∧ (r base).2 = false ∧ (occurOne .ringOverflow (some 1) .none (r fullRing).1).2 = [] ∧
      (occurOne .ringOverflow (some 1) .none (r both).1).2 = [2] ∧ (fullRing.faults.cells.get 5).masked = false ∧
      fullRing.faults.capture = none ∧ countOf (post 1 oneRecord both) .ringOverflow = 2 := by decide +kernel

theorem witness_RingRequestsReadAndConfigure :
    (fullRing.rings.get 1).records = oneRecord :: List.replicate 31 oneRecord ∧ fullRing.takesFrames 1 = true ∧
      31 < (fullRing.rings.get 1).records.length := by decide +kernel

theorem witness_RaiseFollowsTheTable : (base.vectors.get 0).enable = false ∧ (notified.vectors.get 0).enable = true ∧
    ((notified.vectors.get 0).vecs.get 2).state = .idle ∧
    (((raiseVec 0 2 notified).vectors.get 0).vecs.get 2).state ≠ .idle := by decide +kernel

theorem witness_VectorRequestsActOnTheirPort : (raiseVec 0 2 notified).takesFrames 0 = true ∧
    (((raiseVec 0 2 notified).vectors.get 0).vecs.get 2).state = .active ∧
    (((raiseVec 0 3 notified).vectors.get 0).vecs.get 3).state = .pending := by decide +kernel

/-- A kind masked and unmasked, its count 0 and above, the capture record absent and held. -/
theorem witness_OccurrenceIsCountedAndReported :
    let t := occur .lateFire (some 0) .none notified
    (notified.faults.cells.get 4) = ⟨0, false, .minor⟩ ∧ notified.faults.capture = none ∧
      (t.faults.cells.get 4) = ⟨1, false, .minor⟩ ∧ t.faults.capture ≠ none ∧ (notified.vectors.get 0).enable = true ∧
      (fullRing.rings.get 1).selFault = true ∧
      ({ (t.faults.cells.get 4) with masked := true } : FaultCell).masked = true := by decide +kernel

/-- The capture record held and absent, and the refusals of the fault log's requests. -/
theorem witness_FaultRefusals :
    let t := occur .pinContention none (.contention 0 true) base
    let st := fun (c : Instr) => ((after c t).ports.get 0).result.status
    captureLayout none = [0xFF] ++ List.replicate 10 0 ++ [0xFF] ++ List.replicate 8 0 ∧
      captureLayout t.faults.capture = [8] ++ List.replicate 10 0 ++ [0xFF, 0, 1] ++ List.replicate 6 0 ∧
      ((after (.faultRead 0 []) t).ports.get 0).result.data.drop 15 =
        captureLayout t.faults.capture ++ [b1 (2 + (if t.faults.faultnLow then 4 else 0))] ∧
      st (.faultClear 0 [10, 0]) = .ok ∧ st (.faultClear 0 [11, 0]) = .badArgument ∧
      st (.faultConfigure 0 (List.replicate 23 1)) = .ok ∧
      st (.faultConfigure 0 (List.replicate 22 1 ++ [2])) = .badArgument := by decide +kernel

theorem witness_StoreWriteTakesASnapshot : writing.settings.store.isWriting = true ∧ writing.settings.holder = some 0 ∧
    writing.settings.frozen = false ∧ base.settings.store.isWriting = false := by decide +kernel

theorem witness_StoreCompletionVerifiesTheImage : writing.settings.store = .writing [] 0 true ∧ writing.powered = true ∧
    0 + 8000000 ≤ (atTime 0 8000000 writing).time.rt ∧ writing.settings.requester = some 0 ∧
    (writing.rings.get 0).records.length < 32 ∧
    ({ writing with settings := { writing.settings with requester := none } } : State).settings.requester = none ∧
    ({ writing with vectors := notified.vectors } : State).vectors.get 0 = notified.vectors.get 0 := by decide +kernel

theorem witness_LeaseRequestsStartTheLease : ((withLease (.running 0) 60000 base).ports.get 0).leasePeriodMs = 60000 ∧
    (base.ports.get 0).leasePeriodMs = 0 ∧ base.takesFrames 0 = true := by decide +kernel

theorem witness_LeaseExpiryTearsDownTheClaims :
    let s := withLease (.running 80000000) 50 base
    s.powered = true ∧ (s.ports.get 0).lease = .running 80000000 ∧ s.time.rt < 80000000 ∧
      80000000 ≤ (atTime 0 80000000 s).time.rt ∧ (s.pins.get 0).holder = some 0 ∧ s.settings.holder = some 0 := by
  decide +kernel

theorem witness_resets : base.takesFrames 0 = true ∧ base.powered = true ∧ (base.ports.get 0).prstnLow = false ∧
    base.resetnLow = false ∧ base.settings.holder = some 0 ∧ base.settings.store.isWriting = false ∧ base.load = none ∧
    ((after (.prstnFall 0) base).ports.get 0).prstnLow = true ∧ (after .resetnFall base).load = some (.hubReset false) := by
  decide +kernel

end Sys2Proof.Tests
end

section
/-! SUPPORT. Late expiries: what an expiry puts back on the armed list, and why no due stays behind after `takeDue` (R45, R46, R66). -/

namespace Sys2Proof.Machine

open Sys2Proof.Safety

/-! ## The armed list -/

theorem mem_insertArmed {a b : Armed} {l : List Armed} : b ∈ insertArmed a l ↔ b = a ∨ b ∈ l := by
  rw [(insertArmed_perm a l).mem_iff, List.mem_cons]

/-- An insertion by R44 keeps the ascending due order. -/
theorem insertArmed_sorted (a : Armed) {l : List Armed} (h : l.Pairwise fun b c => b.due ≤ c.due) :
    (insertArmed a l).Pairwise fun b c => b.due ≤ c.due := by
  induction l with
  | nil => simp [insertArmed]
  | cons b l ih =>
    obtain ⟨hb, hl⟩ := List.pairwise_cons.1 h
    unfold insertArmed
    split
    · next hle =>
      refine List.pairwise_cons.2 ⟨fun c hc => ?_, ih hl⟩
      rcases mem_insertArmed.1 hc with rfl | hc
      · exact hle
      · exact hb c hc
    · next hlt =>
      refine List.pairwise_cons.2 ⟨fun c hc => ?_, h⟩
      rcases List.mem_cons.1 hc with rfl | hc
      · omega
      · exact (by omega : a.due ≤ b.due).trans (hb c hc)

/-! ## One expiry -/

/-- The expiry of `a` is the LEAD of a PULSE; every other expiry is a complete firing (R47, R54). -/
def Armed.isLead (a : Armed) : Bool :=
  match a.entry.action, a.phase with
  | .pulse _ _ _, .lead => true
  | _, _ => false

theorem Armed.isLead_iff {a : Armed} :
    a.isLead = true ↔ ∃ k level width, a.entry.action = .pulse k level width ∧ a.phase = .lead := by
  cases hact : a.entry.action <;> cases hphase : a.phase <;> simp [Armed.isLead, hact, hphase]

theorem expireOne_of_lead {a : Armed} {k : Pin} {level : Level} {width : Nat} (hact : a.entry.action = .pulse k level width)
    (hphase : a.phase = .lead) (lateness : Nat) (s : State) :
    expireOne a lateness s = lateFire a lateness (reinsertTrail a width lateness (expiryDrive a s)) := by
  simp [expireOne, hact, hphase]

theorem expireOne_of_not_lead {a : Armed} (h : a.isLead = false) (lateness : Nat) (s : State) :
    expireOne a lateness s = completeFiring a lateness (expiryDrive a s) := by
  unfold expireOne
  split <;> simp_all [Armed.isLead]

theorem expiryDrive_sched (a : Armed) (s : State) : (expiryDrive a s).sched = s.sched := by
  unfold expiryDrive
  split <;> rfl

theorem expiryDrive_faults (a : Armed) (s : State) : (expiryDrive a s).faults = s.faults := by
  unfold expiryDrive
  split <;> rfl

theorem continueEntry_faults (a : Armed) (c : Continuation) (s : State) : (continueEntry a c s).faults = s.faults := by
  unfold continueEntry
  split <;> rfl

/-! ## What an expiry puts back on the armed list -/

/-- The armed list with what an expiry puts back. -/
def insertBack : Option Armed → List Armed → List Armed
  | none, l => l
  | some b, l => insertArmed b l

/-- What a complete firing of `a` puts back: the next occurrence, where its continuation has one on the armed list (R52). -/
def Armed.nextArmed (a : Armed) (ht : Nat) : Option Armed :=
  match (a.continuation ht).after with
  | .removed => none
  | .again due kind => some ⟨{ a.entry with kind := kind }, due, .lead⟩
  | .waits _ => none

theorem continueEntry_armed (a : Armed) (ht : Nat) (s : State) :
    (continueEntry a (a.continuation ht) s).sched.armed = insertBack (a.nextArmed ht) s.sched.armed := by
  unfold continueEntry Armed.nextArmed
  cases (a.continuation ht).after <;> rfl

theorem completeFiring_armed (a : Armed) (lateness : Nat) (s : State) :
    (completeFiring a lateness s).sched.armed = insertBack (a.nextArmed s.time.ht) s.sched.armed := by
  unfold completeFiring
  rw [(lateFire_logOnly a lateness _).armed, (entryRaise_logOnly a _).armed, (firedRecord_logOnly a lateness _ _).armed,
    continueEntry_armed]

/-- R52: the next due of a periodic entry lies beyond HT, and its period stays. -/
theorem catchUp_again {b ht due : Nat} {q : Periodic} {kind : EntryKind} (hq : 0 < q.period)
    (h : (catchUp b ht q).after = .again due kind) :
    ht < due ∧ ∃ n, kind = .timed (some { q with repeats := n }) := by
  have hnext : ht < b + ((ht - b) / q.period + 1) * q.period := by
    have := Nat.lt_div_mul_add hq (a := ht - b)
    rw [Nat.add_mul]
    omega
  unfold catchUp at h
  dsimp only at h
  split_ifs at h <;> cases h <;> exact ⟨hnext, _, rfl⟩

/-- A periodic entry has a period of 1 ns or more (`Safety.PeriodsPositive` for one entry). -/
def PeriodPositive (a : Armed) : Prop := ∀ q, a.entry.kind = .timed (some q) → 0 < q.period

/-- The next occurrence lies beyond HT and has the period of the one before (R52). -/
theorem Armed.nextArmed_spec {a b : Armed} {ht : Nat} (hp : PeriodPositive a) (h : a.nextArmed ht = some b) :
    ht < b.due ∧ PeriodPositive b := by
  unfold Armed.nextArmed Armed.continuation at h
  rcases hk : a.entry.kind with (_ | q) | ⟨pin, ed, offset, rearm⟩
  · simp [hk] at h
  · simp only [hk] at h
    split at h <;> cases h
    next hafter =>
    obtain ⟨hlt, n, rfl⟩ := catchUp_again (hp q hk) hafter
    exact ⟨hlt, fun q' e => by cases e; exact hp q hk⟩
  · simp only [hk, rearmed] at h
    split_ifs at h

/-- How often `a` still expires at an event at `ht`: twice as a PULSE in LEAD, and otherwise once, if its due is reached. -/
def Armed.firingsLeft (ht : Nat) (a : Armed) : Nat := if a.due ≤ ht then (if a.isLead then 2 else 1) else 0

/-- An expiry of `a` puts back at most one entry, which has fewer firings left at the event than `a` had (R46, R48, R52). -/
theorem expireOne_putsBack {a : Armed} {s : State} (hp : PeriodPositive a) (hdue : a.due ≤ s.time.ht) (lateness : Nat) :
    ∃ back, (expireOne a lateness s).sched.armed = insertBack back s.sched.armed ∧
      ∀ b, back = some b → PeriodPositive b ∧ b.firingsLeft s.time.ht < a.firingsLeft s.time.ht := by
  cases hl : a.isLead with
  | true =>
    obtain ⟨k, level, width, hact, hphase⟩ := Armed.isLead_iff.1 hl
    refine ⟨some { a with due := min (a.due + width) maxTime, phase := .trail lateness }, ?_, ?_⟩
    · rw [expireOne_of_lead hact hphase, (lateFire_logOnly a lateness _).armed]
      simp [reinsertTrail, armEntry, insertBack, expiryDrive_sched]
    · rintro b ⟨⟩
      refine ⟨hp, ?_⟩
      have hb : ({ a with due := min (a.due + width) maxTime, phase := .trail lateness } : Armed).isLead = false := by
        simp [Armed.isLead]
      simp only [Armed.firingsLeft, hb, hl, hdue, if_true]
      split <;> simp
  | false =>
    refine ⟨a.nextArmed s.time.ht, ?_, fun b hb => ?_⟩
    · rw [expireOne_of_not_lead hl, completeFiring_armed, expiryDrive_sched, (expiryDrive_fireOnly a s).time]
    · obtain ⟨hlt, hpb⟩ := Armed.nextArmed_spec hp hb
      refine ⟨hpb, ?_⟩
      simp [Armed.firingsLeft, hdue, hl, Nat.not_le.2 hlt]

/-! ## No due stays behind -/

/-- The firings that an event at `ht` still brings. -/
def firingsLeft (ht : Nat) (l : List Armed) : Nat := (l.map (Armed.firingsLeft ht)).sum

theorem firingsLeft_insertArmed (ht : Nat) (a : Armed) (l : List Armed) :
    firingsLeft ht (insertArmed a l) = a.firingsLeft ht + firingsLeft ht l := by
  simp [firingsLeft, ((insertArmed_perm a l).map _).sum_eq]

theorem firingsLeft_le (ht : Nat) (l : List Armed) : firingsLeft ht l ≤ 2 * l.length := by
  unfold firingsLeft
  induction l with
  | nil => simp
  | cons a l ih =>
    have : a.firingsLeft ht ≤ 2 := by unfold Armed.firingsLeft; split_ifs <;> omega
    simp only [List.map_cons, List.sum_cons, List.length_cons]
    omega

/-- The head of the armed list taken off it and expired. -/
def expireHead (late : Bool) (a : Armed) (rest : List Armed) (s : State) : State :=
  expireOne a (latenessOf late a s) { s with sched := { s.sched with armed := rest } }

theorem expireHead_fireOnly (late : Bool) (a : Armed) (rest : List Armed) (s : State) :
    FireOnly s (expireHead late a rest s) :=
  FireOnly.trans ⟨rfl⟩ (expireOne_fireOnly a _ _)

/-- `expireDue` where the head is due. -/
theorem expireDue_head {s : State} {a : Armed} {rest : List Armed} (harmed : s.sched.armed = a :: rest)
    (hrun : s.sched.held = false) (hdue : a.due ≤ s.time.ht) (late : Bool) (n : Nat) :
    (expireDue late (n + 1) s).1 = (expireDue late n (expireHead late a rest s)).1 := by
  simp [expireDue, expireHead, latenessOf, harmed, hrun, hdue]

/-- `expireDue` where no expiry is due. -/
theorem expireDue_of_not_due {s : State} (h : s.expiryDue = false) (late : Bool) (n : Nat) : expireDue late n s = (s, 0) := by
  cases n with
  | zero => rfl
  | succ n =>
    rcases harmed : s.sched.armed with _ | ⟨a, rest⟩
    · simp [expireDue, harmed]
    · have : ¬(s.sched.held = false ∧ a.due ≤ s.time.ht) := by simpa [State.expiryDue, harmed] using h
      simp [expireDue, harmed, this]

/-- Where no expiry is due, none is taken. -/
theorem takeDue_of_not_due {s : State} (h : s.expiryDue = false) (late : Bool) : takeDue late s = (s, 0) :=
  expireDue_of_not_due h late _

/-- What the loop of expiries keeps: the schedule is in RUN, its armed list in due order, its periods positive. -/
structure RunSorted (s : State) : Prop where
  run : s.sched.held = false
  sorted : ArmedSorted s
  periods : ∀ a ∈ s.sched.armed, PeriodPositive a

theorem RunSorted.of_periodsPositive {s : State} (hrun : s.sched.held = false) (hsorted : ArmedSorted s)
    (hpos : PeriodsPositive s) : RunSorted s :=
  ⟨hrun, hsorted, fun _ ha => hpos _ (List.mem_append_left _ (List.mem_map_of_mem ha))⟩

theorem RunSorted.of_logOnly {s t : State} (h : RunSorted s) (hlog : LogOnly s t) : RunSorted t := by
  obtain ⟨hrun, hsorted, hpos⟩ := h
  refine ⟨hlog.held.trans hrun, ?_, ?_⟩
  · unfold ArmedSorted
    rwa [hlog.armed]
  · rwa [hlog.armed]

/-- The expiry of a due head keeps the loop's invariant and uses up a firing. -/
theorem RunSorted.expireHead {s : State} {a : Armed} {rest : List Armed} (h : RunSorted s) (harmed : s.sched.armed = a :: rest)
    (hdue : a.due ≤ s.time.ht) (late : Bool) :
    RunSorted (expireHead late a rest s) ∧
      firingsLeft s.time.ht (Machine.expireHead late a rest s).sched.armed < firingsLeft s.time.ht s.sched.armed := by
  obtain ⟨hrun, hsorted, hpos⟩ := h
  unfold ArmedSorted at hsorted
  rw [harmed] at hsorted hpos ⊢
  have hrest := (List.pairwise_cons.1 hsorted).2
  have hposrest : ∀ b ∈ rest, PeriodPositive b := fun b hb => hpos b (List.mem_cons_of_mem a hb)
  obtain ⟨back, harm, hback⟩ := expireOne_putsBack (s := { s with sched := { s.sched with armed := rest } })
    (hpos a (by simp)) hdue (latenessOf late a s)
  change (Machine.expireHead late a rest s).sched.armed = insertBack back rest at harm
  have hleft : firingsLeft s.time.ht (a :: rest) = a.firingsLeft s.time.ht + firingsLeft s.time.ht rest := rfl
  have hheld := (expireHead_fireOnly late a rest s).held.trans hrun
  rw [harm, hleft]
  cases back with
  | none =>
    have ha : 0 < a.firingsLeft s.time.ht := by
      simp only [Armed.firingsLeft, hdue, if_true]
      split <;> simp
    refine ⟨⟨hheld, ?_, ?_⟩, Nat.lt_add_of_pos_left ha⟩
    · unfold ArmedSorted
      rwa [harm]
    · rwa [harm]
  | some b =>
    obtain ⟨hb, hfewer⟩ := hback b rfl
    refine ⟨⟨hheld, ?_, ?_⟩, ?_⟩
    · unfold ArmedSorted
      rw [harm]
      exact insertArmed_sorted b hrest
    · rw [harm]
      intro c hc
      rcases mem_insertArmed.1 hc with rfl | hc
      · exact hb
      · exact hposrest c hc
    · rw [insertBack, firingsLeft_insertArmed]
      exact Nat.add_lt_add_right hfewer _

/-- The head of a sorted list has the least due. -/
theorem RunSorted.none_due {s : State} (h : RunSorted s) (hnot : s.expiryDue = false) :
    ∀ a ∈ s.sched.armed, s.time.ht < a.due := by
  obtain ⟨hrun, hsorted, -⟩ := h
  intro b hb
  rcases harmed : s.sched.armed with _ | ⟨a, rest⟩
  · simp [harmed] at hb
  · have ha : s.time.ht < a.due := by simpa [State.expiryDue, harmed, hrun] using hnot
    unfold ArmedSorted at hsorted
    rw [harmed] at hsorted hb
    rcases List.mem_cons.1 hb with rfl | hb
    · exact ha
    · exact ha.trans_le ((List.pairwise_cons.1 hsorted).1 b hb)

/-- With as many expiries as the event can bring, none stays due (R45, R46). -/
theorem RunSorted.expireDue {s : State} (h : RunSorted s) (late : Bool) {n : Nat}
    (hfuel : firingsLeft s.time.ht s.sched.armed ≤ n) : ∀ a ∈ (expireDue late n s).1.sched.armed, s.time.ht < a.due := by
  induction n generalizing s with
  | zero =>
    refine h.none_due ?_
    rcases harmed : s.sched.armed with _ | ⟨a, rest⟩
    · simp [State.expiryDue, harmed]
    · simp only [harmed, firingsLeft, List.map_cons, List.sum_cons, Armed.firingsLeft] at hfuel
      have : s.time.ht < a.due := by split_ifs at hfuel <;> omega
      simp [State.expiryDue, harmed, this]
  | succ n ih =>
    cases hdue : s.expiryDue with
    | false =>
      rw [expireDue_of_not_due hdue]
      exact h.none_due hdue
    | true =>
      rcases harmed : s.sched.armed with _ | ⟨a, rest⟩
      · simp [State.expiryDue, harmed] at hdue
      · have ha : a.due ≤ s.time.ht := by simpa [State.expiryDue, harmed, h.run] using hdue
        obtain ⟨hnext, hfewer⟩ := h.expireHead harmed ha late
        rw [expireDue_head harmed h.run ha]
        have htime := (expireHead_fireOnly late a rest s).time
        simpa only [htime] using ih hnext (by rw [htime]; omega)

/-- R45, R46: after the expiries of an event no due that HT has reached is on the armed list. -/
theorem takeDue_none_due (late : Bool) {s : State} (h : RunSorted s) :
    ∀ a ∈ (takeDue late s).1.sched.armed, s.time.ht < a.due :=
  h.expireDue late (firingsLeft_le _ _)

/-! ## What expiries do to the counts -/

theorem lateFire_count {j : FaultKind} (hr : j ≠ .ringOverflow) (hl : j ≠ .lateFire) (a : Armed) (n : Nat) (s : State) :
    countOf (lateFire a n s) j = countOf s j := by
  unfold lateFire
  split
  · rw [occur_count hr, if_neg hl]
  · rfl

theorem entryRaise_faults (a : Armed) (s : State) : (entryRaise a s).faults = s.faults := by
  unfold entryRaise
  split <;> rfl

theorem firedRecord_count {j : FaultKind} (hr : j ≠ .ringOverflow) (a : Armed) (n : Nat) (c : Continuation) (s : State) :
    countOf (firedRecord a n c s) j = countOf s j := by
  unfold firedRecord
  dsimp only
  split
  · exact post_count hr _ _ s
  · rfl

theorem completeFiring_count {j : FaultKind} (hr : j ≠ .ringOverflow) (hl : j ≠ .lateFire) (a : Armed) (n : Nat) (s : State) :
    countOf (completeFiring a n s) j = countOf s j :=
  (lateFire_count hr hl a n _).trans <| (countOf_of_faults (entryRaise_faults a _) j).trans <|
    (firedRecord_count hr a n _ _).trans (countOf_of_faults (continueEntry_faults a _ s) j)

/-- An expiry moves no count but LATE_FIRE's and RING_OVERFLOW's. -/
theorem expireOne_count {j : FaultKind} (hr : j ≠ .ringOverflow) (hl : j ≠ .lateFire) (a : Armed) (n : Nat) (s : State) :
    countOf (expireOne a n s) j = countOf s j := by
  have hd := countOf_of_faults (expiryDrive_faults a s) j
  cases h : a.isLead with
  | true =>
    obtain ⟨k, level, width, hact, hphase⟩ := Armed.isLead_iff.1 h
    rw [expireOne_of_lead hact hphase, lateFire_count hr hl]
    exact hd
  | false => rw [expireOne_of_not_lead h, completeFiring_count hr hl, hd]

theorem takeDue_count {j : FaultKind} (hr : j ≠ .ringOverflow) (hl : j ≠ .lateFire) (late : Bool) (s : State) :
    countOf (takeDue late s).1 j = countOf s j := by
  unfold takeDue
  generalize 2 * s.sched.armed.length = n
  induction n generalizing s with
  | zero => rfl
  | succ n ih =>
    unfold expireDue
    split
    · rfl
    · split
      · exact (ih _).trans (expireOne_count hr hl _ _ _)
      · rfl

end Sys2Proof.Machine
end

section
/-! SUPPORT. The time counter: advances (R2, R3), forward steps with their notices (R8, R9, R66, R98), and TIME SET (R12, R13). -/

namespace Sys2Proof.Machine

open Sys2Proof.Safety

/-! ## Advances -/

/-- The increment is the quotient of R2 rounded toward zero, which for a positive sum of the trims with 10^9 is its floor. -/
theorem increment_floor {f s : Int} (h : 0 ≤ 1000000000 + f + s) :
    (increment f s : Int) * 1000000000 ≤ 40 * (1000000000 + f + s) * 4294967296 ∧
      40 * (1000000000 + f + s) * 4294967296 < ((increment f s : Int) + 1) * 1000000000 := by
  have hnum : 0 ≤ 40 * (1000000000 + f + s) * 4294967296 := by omega
  have hinc : (increment f s : Int) = 40 * (1000000000 + f + s) * 4294967296 / 1000000000 := by
    unfold increment
    rw [Int.tdiv_eq_ediv_of_nonneg hnum]
    omega
  omega

theorem maxTime_eq : maxTime = 2 ^ 64 - 1 := rfl

theorem addTime_of_le {count frac inc : Nat} (h : (count * 4294967296 + frac + inc) / 4294967296 ≤ maxTime) :
    addTime count frac inc =
      ((count * 4294967296 + frac + inc) / 4294967296, (count * 4294967296 + frac + inc) % 4294967296) :=
  if_pos h

theorem addTime_of_lt {count frac inc : Nat} (h : maxTime < (count * 4294967296 + frac + inc) / 4294967296) :
    addTime count frac inc = (maxTime, 0) :=
  if_neg (Nat.not_le.2 h)

/-- `addTime` carries the fraction into the count, and saturates as R1 states. -/
theorem addTime_advanced (count frac inc : Nat) :
    Advanced count frac inc (addTime count frac inc).1 (addTime count frac inc).2 := by
  unfold Advanced
  dsimp only
  rcases le_or_gt ((count * 4294967296 + frac + inc) / 4294967296) maxTime with h | h
  · rw [addTime_of_le h, if_pos (by rw [maxTime_eq] at h; omega)]
    exact ⟨Nat.div_add_mod' _ _, Nat.mod_lt _ (by omega)⟩
  · rw [addTime_of_lt h, if_neg (by rw [maxTime_eq] at h; omega)]
    exact ⟨maxTime_eq, rfl⟩

/-- An advance never takes a count back, and keeps it within 64 bits (R1, R2). -/
theorem Advanced_forward {count frac inc count' frac' : Nat} (h : Advanced count frac inc count' frac')
    (hcount : count ≤ 2 ^ 64 - 1) : count ≤ count' ∧ count' ≤ 2 ^ 64 - 1 := by
  unfold Advanced at h
  dsimp only at h
  split_ifs at h <;> omega

/-- An advance moves the two counts with their fractions and nothing else (R2, R3). -/
theorem TimeCounter.advance_spec (inc : Nat) (t : TimeCounter) :
    ∃ ht htFrac rt rtFrac, t.advance inc = ⟨ht, htFrac, rt, rtFrac, t.epoch⟩ ∧
      Advanced t.ht t.htFrac inc ht htFrac ∧ Advanced t.rt t.rtFrac inc rt rtFrac := by
  have hht := addTime_advanced t.ht t.htFrac inc
  have hrt := addTime_advanced t.rt t.rtFrac inc
  unfold TimeCounter.advance
  generalize addTime t.ht t.htFrac inc = h at hht ⊢
  generalize addTime t.rt t.rtFrac inc = r at hrt ⊢
  exact ⟨h.1, h.2, r.1, r.2, rfl, hht, hrt⟩

/-- The increment lies between 30 and 50 ns for trims in their ranges, and is 40 ns without a trim (R2). -/
theorem increment_range {f s : Int} (hf : -200000 ≤ f ∧ f ≤ 200000) (hs : -50000 ≤ s ∧ s ≤ 50000) :
    30 * 4294967296 ≤ increment f s ∧ increment f s ≤ 50 * 4294967296 ∧ (f + s = 0 → increment f s = 40 * 4294967296) := by
  obtain ⟨hle, hlt⟩ := increment_floor (f := f) (s := s) (by omega)
  generalize increment f s = inc at hle hlt ⊢
  omega

theorem exec_advance {s : State} (h : s.powered = true) :
    exec .advance s = .next { s with time := s.time.advance (increment s.disc.f s.disc.s) } := by
  change Host.Outcome.next _ = _
  rw [if_pos h]

/-- Settles O12: the floor of R2 with the bounds of the trims, and the carry of `addTime` for both counts. -/
theorem advanceAddsTheTrimmedIncrement : Obligations.AdvanceAddsTheTrimmedIncrement := by
  intro s hpowered hf1 hf2 hs1 hs2
  obtain ⟨hle, hlt⟩ := increment_floor (f := s.disc.f) (s := s.disc.s) (by omega)
  obtain ⟨hlo, hhi, hexact⟩ := increment_range ⟨hf1, hf2⟩ ⟨hs1, hs2⟩
  obtain ⟨ht, htFrac, rt, rtFrac, htime, hht, hrt⟩ := TimeCounter.advance_spec (increment s.disc.f s.disc.s) s.time
  refine ⟨_, ⟨ht, htFrac, rt, rtFrac, s.time.epoch⟩, ?_, hle, hlt, hlo, hhi, hexact, hht, hrt, rfl⟩
  rw [exec_advance hpowered, htime]

/-! ## Forward steps -/

theorem expiryDue_of_held {s : State} (h : s.sched.held = true) : s.expiryDue = false := by
  simp [State.expiryDue, h]

theorem TimeCounter.step_of_le {d : Nat} {t : TimeCounter} (h : t.ht + d ≤ maxTime) :
    t.step d = { t with ht := t.ht + d, epoch := t.epoch + 1 } := by
  simp [TimeCounter.step, h]

/-- R9: from `m` on, a step of `amount` takes the TIME_STEP occurrence and the late expiries in either order. -/
def StepOrders (amount : Nat) (m u : State) : Prop :=
  u = occur .timeStep none (.stepAmount amount) (takeDue true m).1 ∨
    u = (takeDue true (occur .timeStep none (.stepAmount amount) m)).1

/-- The step notices: the windows are marked, and then the fault log's and the schedule's are taken in either order (R9, R98). -/
theorem stepNotices_orders (amount : Nat) (s : State) :
    ∃ draws, StepOrders amount { markWindows s with choices := draws } (stepNotices amount s) := by
  unfold stepNotices
  dsimp only
  split
  · refine ⟨s.choices + 1, ?_⟩
    split
    · exact .inr rfl
    · exact .inl rfl
  · next hnot =>
    refine ⟨s.choices, .inl ?_⟩
    change _ = occur _ _ _ (takeDue true (markWindows s)).1
    rw [takeDue_of_not_due (by simpa using hnot)]

theorem StepOrders.fireOnly {amount : Nat} {m u : State} (h : StepOrders amount m u) : FireOnly m u := by
  rcases h with rfl | rfl
  · exact (takeDue_fireOnly _ _).trans (occur_logOnly _ _ _ _).fire
  · exact (occur_logOnly _ _ _ _).fire.trans (takeDue_fireOnly _ _)

/-- A step counts one TIME_STEP. -/
theorem StepOrders.count {amount : Nat} {m u : State} (h : StepOrders amount m u) :
    countOf u .timeStep = bumped (countOf m .timeStep) := by
  rcases h with rfl | rfl
  · rw [occur_count (by decide), if_pos rfl, takeDue_count (by decide) (by decide)]
  · rw [takeDue_count (by decide) (by decide), occur_count (by decide), if_pos rfl]

/-- In HELD a step takes no expiry. -/
theorem StepOrders.logOnly_of_held {amount : Nat} {m u : State} (h : StepOrders amount m u) (hheld : m.sched.held = true) :
    LogOnly m u := by
  have hoccur := occur_logOnly .timeStep none (.stepAmount amount) m
  rcases h with rfl | rfl
  · rw [takeDue_of_not_due (expiryDue_of_held hheld)]
    exact hoccur
  · rw [takeDue_of_not_due (expiryDue_of_held (hoccur.held.trans hheld))]
    exact hoccur

/-- In RUN no entry whose due the step passed over stays behind (R66). -/
theorem StepOrders.none_due {amount : Nat} {m u : State} (h : StepOrders amount m u) (hrun : RunSorted m) :
    ∀ a ∈ u.sched.armed, m.time.ht < a.due := by
  have hoccur := occur_logOnly .timeStep none (.stepAmount amount) m
  rcases h with rfl | rfl
  · rw [(occur_logOnly _ _ _ _).armed]
    exact takeDue_none_due true hrun
  · rw [← hoccur.time]
    exact takeDue_none_due true (hrun.of_logOnly hoccur)

/-- The state at which the notices of a forward step to `v` are taken, with as many free values drawn (R8, R98). -/
def steppedTo (v draws : Nat) (s : State) : State :=
  { s with time := { s.time with ht := v, epoch := s.time.epoch + 1 }, watch := (markWindows s).watch, choices := draws }

/-- A forward step to a greater value within 64 bits (R8, R9). -/
theorem forwardStep_orders {v : Nat} {s : State} (hlt : s.time.ht < v) (hv : v ≤ maxTime) :
    ∃ draws, StepOrders (v - s.time.ht) (steppedTo v draws s) (forwardStep (v - s.time.ht) s) := by
  have hsum : s.time.ht + (v - s.time.ht) = v := by omega
  unfold forwardStep
  simp only [TimeCounter.step_of_le (hsum.trans_le hv), hsum]
  exact stepNotices_orders _ _

/-! ## TIME SET -/

theorem exec_timeSet (p : Port) (args : List Byte) (s : State) :
    exec (.timeSet p args) s = .next (request p 0x12#8 s (timeSet p args)) := rfl

/-- TIME SET that passes its length check and the check of the settings claim. -/
theorem timeSet_of_holder {p : Port} {args : List Byte} {s : State} (hlen : args.length = 8)
    (hholder : s.settings.holder = some p) :
    timeSet p args s =
      if 2 ^ 62 ≤ be args then refuse s .badTime
      else if s.disc.state ≠ .freerun ∧ s.disc.state ≠ .search then refuse s .wrongState
      else if be args < s.time.ht then ⟨s, .backward, beN 8 s.time.ht⟩
      else
        let s1 := if be args = s.time.ht then s else forwardStep (be args - s.time.ht) s
        ok s1 (beN 8 s.time.ht ++ beN 8 s1.time.ht ++ beN 2 s1.time.epoch.toNat) := by
  simp [timeSet, fld_whole' hlen, hlen, State.holdsSettings, hholder, timeLimit]

/-- TIME SET that passes its first four checks (R12). -/
theorem timeSet_of_free {p : Port} {args : List Byte} {s : State} (hlen : args.length = 8)
    (hholder : s.settings.holder = some p) (hlimit : be args < 2 ^ 62)
    (hfree : s.disc.state = .freerun ∨ s.disc.state = .search) :
    timeSet p args s =
      if be args < s.time.ht then ⟨s, .backward, beN 8 s.time.ht⟩
      else
        let s1 := if be args = s.time.ht then s else forwardStep (be args - s.time.ht) s
        ok s1 (beN 8 s.time.ht ++ beN 8 s1.time.ht ++ beN 2 s1.time.epoch.toNat) := by
  have hstate : ¬(s.disc.state ≠ .freerun ∧ s.disc.state ≠ .search) := by tauto
  rw [timeSet_of_holder hlen hholder, if_neg (Nat.not_le.2 hlimit), if_neg hstate]

/-- TIME SET on a port that takes frames: the outcome of its rule in the result buffer. -/
theorem exec_timeSet_taken {p : Port} {s : State} (h : s.takesFrames p = true) {args : List Byte} {r : Reply}
    (hr : timeSet p args s = r) : exec (.timeSet p args) s = .next (answer p ⟨r.status, 0x12#8, r.data⟩ r.state) := by
  rw [exec_timeSet, request_taken h, hr]

/-- Settles O14: each check of R12 by the branch of `timeSet` that it is. -/
theorem timeSetChecksInOrder : Obligations.TimeSetChecksInOrder := by
  intro p args s htakes
  refine ⟨fun hlen => ?length, fun hlen hholder => ?claim, fun hlen hholder hlimit => ?limit,
    fun hlen hholder hlimit hnf hns => ?state, fun hlen hholder hlimit hfree hback => ?backward,
    fun hlen hholder hlimit hfree hforward => ?passes⟩
  case length => exact exec_timeSet_taken htakes (r := refuse s .badArgument) (by simp [timeSet, hlen])
  case claim =>
    exact exec_timeSet_taken htakes (r := refuse s .notPermitted) (by simp [timeSet, hlen, State.holdsSettings, hholder])
  case limit =>
    exact exec_timeSet_taken htakes (r := refuse s .badTime) (by rw [timeSet_of_holder hlen hholder, if_pos hlimit])
  case state =>
    exact exec_timeSet_taken htakes (r := refuse s .wrongState)
      (by rw [timeSet_of_holder hlen hholder, if_neg (Nat.not_le.2 hlimit), if_pos ⟨hnf, hns⟩])
  case backward =>
    exact exec_timeSet_taken htakes (r := ⟨s, .backward, beN 8 s.time.ht⟩)
      (by rw [timeSet_of_free hlen hholder hlimit hfree, if_pos hback])
  case passes =>
    have hpass := timeSet_of_free hlen hholder hlimit hfree
    rw [if_neg (Nat.not_lt.2 hforward)] at hpass
    exact ⟨_, exec_timeSet_taken htakes hpass, by simp [ok]⟩

/-- A TIME SET to the present hub time answers and changes nothing (R13). -/
theorem timeSet_equal {p : Port} {s : State} (hholder : s.settings.holder = some p) (hlimit : s.time.ht < 2 ^ 62)
    (hfree : s.disc.state = .freerun ∨ s.disc.state = .search) :
    timeSet p (beN 8 s.time.ht) s = ok s (beN 8 s.time.ht ++ beN 8 s.time.ht ++ beN 2 s.time.epoch.toNat) := by
  have hbe : be (beN 8 s.time.ht) = s.time.ht := be_beN_of_lt (by omega)
  rw [timeSet_of_free (length_beN 8 _) hholder (by rwa [hbe]) hfree]
  simp [hbe]

/-- A TIME SET to a greater hub time is a forward step to it (R13). -/
theorem timeSet_greater {p : Port} {v : Nat} {s : State} (hholder : s.settings.holder = some p) (hlimit : v < 2 ^ 62)
    (hfree : s.disc.state = .freerun ∨ s.disc.state = .search) (hlt : s.time.ht < v) :
    timeSet p (beN 8 v) s = ok (forwardStep (v - s.time.ht) s) (beN 8 s.time.ht ++
      beN 8 (forwardStep (v - s.time.ht) s).time.ht ++ beN 2 (forwardStep (v - s.time.ht) s).time.epoch.toNat) := by
  have hbe : be (beN 8 v) = v := be_beN_of_lt (by omega)
  rw [timeSet_of_free (length_beN 8 _) hholder (by rwa [hbe]) hfree]
  simp only [hbe, if_neg (Nat.not_lt.2 hlt.le), if_neg hlt.ne']

/-- Settles O15: the two values by R13, and for a greater one what `StepOrders` says from the stepped state on. -/
theorem timeSetStepsHubTime : Obligations.TimeSetStepsHubTime := by
  intro p v s htakes hholder hlimit hfree
  refine ⟨?equal, fun hlt => ?greater⟩
  case equal =>
    rintro rfl
    exact exec_timeSet_taken htakes (timeSet_equal hholder hlimit hfree)
  case greater =>
    obtain ⟨draws, horders⟩ := forwardStep_orders hlt (show v ≤ maxTime by rw [maxTime_eq]; omega)
    have hfire := horders.fireOnly
    have hedge := forwardStep_edgeOnly (v - s.time.ht) s
    have hset := timeSet_greater hholder hlimit hfree hlt
    have hexec := exec_timeSet_taken htakes hset
    generalize forwardStep (v - s.time.ht) s = u at *
    have htime : u.time = { s.time with ht := v, epoch := s.time.epoch + 1 } := hfire.time
    refine ⟨_, u, hexec, ?_, hedge, hfire.disc, htime, horders.count, fun k => ?_, fun hheld => ?_,
      fun hrun hsorted hpos => horders.none_due (.of_periodsPositive hrun hsorted hpos), steppedTo v draws s, draws, rfl, ?_,
      horders⟩
    · simp only [ok, htime]
    · rw [hfire.watch]
      exact Tab.get_map _ _ _
    · have hlog := horders.logOnly_of_held hheld
      exact ⟨hlog.armed, hlog.waiting, hlog.pins⟩
    · rw [hfire.watch]
      rfl

end Sys2Proof.Machine
end

section
/-! SUPPORT. What each command does to the time counter: an advance adds to both counts, a forward step (TIME SET, and an edge of the
reference in ACQUIRE) raises hub time, a supply event sets it to 0, and every other command leaves it (R1, R3, R5, R8). -/

namespace Sys2Proof.Machine

open Sys2Proof.Safety

/-! ## The footprint of a forward step on time -/

/-- From `s` to `t` run time stays, and hub time does not decrease within 64 bits. -/
structure HubTimeForward (s t : State) : Prop where
  rt : t.time.rt = s.time.rt
  rtFrac : t.time.rtFrac = s.time.rtFrac
  ht : s.time.ht ≤ maxTime → s.time.ht ≤ t.time.ht ∧ t.time.ht ≤ maxTime

theorem HubTimeForward.of_time {s t : State} (h : t.time = s.time) : HubTimeForward s t := by
  refine ⟨?_, ?_, fun hs => ?_⟩ <;> rw [h]
  exact ⟨le_refl _, hs⟩

theorem HubTimeForward.trans {s t u : State} (h : HubTimeForward s t) (k : HubTimeForward t u) : HubTimeForward s u := by
  refine ⟨k.rt.trans h.rt, k.rtFrac.trans h.rtFrac, fun hs => ?_⟩
  obtain ⟨hst, ht⟩ := h.ht hs
  obtain ⟨htu, hu⟩ := k.ht ht
  exact ⟨hst.trans htu, hu⟩

/-- What comes before a step of hub time and leaves time alone does not matter. -/
theorem HubTimeForward.after {s t u : State} (k : HubTimeForward t u) (h : t.time = s.time) : HubTimeForward s u :=
  (HubTimeForward.of_time h).trans k

/-! ## Forward steps and the reference -/

theorem TimeCounter.step_forward (d : Nat) {t : TimeCounter} (h : t.ht ≤ maxTime) :
    t.ht ≤ (t.step d).ht ∧ (t.step d).ht ≤ maxTime := by
  unfold TimeCounter.step
  split
  · next hle => exact ⟨Nat.le_add_right _ _, hle⟩
  · exact ⟨h, le_refl _⟩

theorem stepNotices_time (amount : Nat) (s : State) : (stepNotices amount s).time = s.time := by
  obtain ⟨draws, horders⟩ := stepNotices_orders amount s
  exact horders.fireOnly.time

theorem forwardStep_forward (d : Nat) (s : State) : HubTimeForward s (forwardStep d s) := by
  have htime : (forwardStep d s).time = s.time.step d := stepNotices_time _ _
  refine ⟨?_, ?_, fun h => ?_⟩ <;> rw [htime]
  · unfold TimeCounter.step
    split <;> rfl
  · unfold TimeCounter.step
    split <;> rfl
  · exact TimeCounter.step_forward d h

theorem enterState_time (new : DiscState) (s : State) : (enterState new s).time = s.time := by
  unfold enterState
  dsimp only
  split
  · rfl
  · exact (reportChange_logOnly _ _ _).time

theorem edgeInSearch_time (s : State) : (edgeInSearch s).time = s.time := by
  unfold edgeInSearch
  split
  · rfl
  · exact enterState_time _ _

theorem edgeInHoldover_time (e : Int) (s : State) : (edgeInHoldover e s).time = s.time := by
  unfold edgeInHoldover
  split
  · rfl
  · exact enterState_time _ _

theorem intoLongWindow_time (e : Int) (s : State) : (intoLongWindow e s).time = s.time := by
  unfold intoLongWindow
  dsimp only
  split
  · rfl
  · split
    · exact enterState_time _ _
    · rfl

theorem edgeInTrack_time (e : Int) (s : State) : (edgeInTrack e s).time = s.time := by
  unfold edgeInTrack
  split
  · exact enterState_time _ _
  · exact intoLongWindow_time e s

theorem unlock_time (e : Int) (s : State) : (unlock e s).time = s.time := by
  unfold unlock
  dsimp only
  split
  · exact (occur_logOnly _ _ _ _).time
  · split
    · exact ((occur_logOnly _ _ _ _).trans (reportChange_logOnly _ _ _)).time
    · exact ((reportChange_logOnly _ _ _).trans (occur_logOnly _ _ _ _)).time

theorem edgeInLocked_time (e : Int) (s : State) : (edgeInLocked e s).time = s.time := by
  unfold edgeInLocked
  split
  · exact unlock_time e s
  · exact intoLongWindow_time e s

/-- The window end of ACQUIRE is the one place of the discipline unit that steps hub time (R25). -/
theorem edgeInAcquire_forward (e : Int) (s : State) : HubTimeForward s (edgeInAcquire e s) := by
  unfold edgeInAcquire
  dsimp only
  split
  · exact .of_time rfl
  · split
    · exact (forwardStep_forward _ _).after rfl
    · split
      · exact .of_time (enterState_time _ _)
      · exact .of_time rfl

theorem handleEdge_forward (s : State) : HubTimeForward s (handleEdge s) := by
  unfold handleEdge
  split
  · exact .of_time rfl
  · exact .of_time (edgeInSearch_time s)
  · exact edgeInAcquire_forward _ s
  · exact .of_time (edgeInTrack_time _ s)
  · exact .of_time (edgeInLocked_time _ s)
  · exact .of_time (edgeInHoldover_time _ s)

theorem activeEdge_forward (change : Edge) (s : State) : HubTimeForward s (activeEdge change s) := by
  unfold activeEdge
  split
  · split
    · exact (handleEdge_forward _).after (acceptEdge_time s)
    · exact .of_time (occur_logOnly _ _ _ _).time
  · exact .of_time rfl

theorem miss_time (s : State) : (miss s).time = s.time := by
  unfold miss
  dsimp only
  split
  · split
    · exact (enterState_time _ _).trans (occur_logOnly _ _ _ _).time
    · rfl
  · rfl

/-! ## The core that most commands leave alone -/

/-- Supply, RESETn, the awaited load, the time counter and the queue stay. -/
structure SameCore (s t : State) : Prop where
  powered : t.powered = s.powered
  resetnLow : t.resetnLow = s.resetnLow
  load : t.load = s.load
  time : t.time = s.time
  pending : t.pending = s.pending

theorem SameCore.of_eq {s t : State} (h : t = s) : SameCore s t := by
  subst h
  exact ⟨rfl, rfl, rfl, rfl, rfl⟩

theorem SameCore.refl (s : State) : SameCore s s := .of_eq rfl

theorem SameCore.trans {s t u : State} (h : SameCore s t) (k : SameCore t u) : SameCore s u :=
  ⟨k.powered.trans h.powered, k.resetnLow.trans h.resetnLow, k.load.trans h.load, k.time.trans h.time, k.pending.trans h.pending⟩

theorem SameCore.after {s t u : State} (k : SameCore t u) (h : SameCore s t) : SameCore s u := h.trans k

theorem SameCore.of_fireOnly {s t : State} (h : FireOnly s t) : SameCore s t :=
  ⟨h.powered, h.resetnLow, h.load, h.time, h.pending⟩

theorem SameCore.of_edgeOnly {s t : State} (h : EdgeOnly s t) (htime : t.time = s.time) : SameCore s t :=
  ⟨h.powered, h.resetnLow, h.load, htime, h.pending⟩

theorem enterHeld_sameCore (s : State) : SameCore s (enterHeld s) := by
  unfold enterHeld
  split <;> exact ⟨rfl, rfl, rfl, rfl, rfl⟩

/-! ## Events that leave time alone -/

theorem expiry_time (s : State) : (expiry s).time = s.time := by
  unfold expiry
  split
  · exact (takeDue_fireOnly _ _).time
  · rfl

theorem takeHoldNotice_time (s : State) : (takeHoldNotice s).time = s.time := by
  unfold takeHoldNotice
  split
  · exact (enterHeld_sameCore _).time
  · rfl

theorem transition_time (pin : Pin) (level : Level) (s : State) : (transition pin level s).time = s.time := by
  unfold transition
  split
  · rfl
  · split
    · split
      · rfl
      · split
        · exact (handOn_fireOnly _ _ _ _ _ _ _).time
        · rfl
    · rfl

theorem debounceWindowEnd_time (pin : Pin) (level : Level) (s : State) : (debounceWindowEnd pin level s).time = s.time := by
  unfold debounceWindowEnd
  split
  · rfl
  · dsimp only
    split
    · rfl
    · exact (handOn_fireOnly _ _ _ _ _ _ _).time

theorem contentionCheck_time (pin : Pin) (level : Level) (s : State) : (contentionCheck pin level s).time = s.time := by
  unfold contentionCheck
  dsimp only
  split
  · split
    · rfl
    · split
      · rfl
      · exact (occur_logOnly _ _ _ _).time
  · rfl

theorem expireSettings_time (p : Port) (s : State) : (expireSettings p s).time = s.time := by
  unfold expireSettings
  split
  · exact (post_logOnly _ _ _).time
  · rfl

theorem leaseExpiry_time (p : Port) (s : State) : (leaseExpiry p s).time = s.time := by
  unfold leaseExpiry
  split
  · simp only [raiseClass_time, (occur_logOnly _ _ _ _).time, expireSettings_time, (expireClaims_fireOnly p _ s).time]
  · rfl

theorem postStoreDone_time (requester : Option Port) (verified : Bool) (s : State) :
    (postStoreDone requester verified s).time = s.time := by
  unfold postStoreDone
  split
  · rfl
  · exact (post_logOnly _ _ _).time

theorem storeCompletion_time (verified : Bool) (s : State) : (storeCompletion verified s).time = s.time := by
  unfold storeCompletion
  split
  · rfl
  · rfl
  · dsimp only
    split
    · split
      · exact postStoreDone_time _ _ _
      · exact (occur_logOnly _ _ _ _).time.trans (postStoreDone_time _ _ _)
    · rfl

theorem settingsLoad_time (levels : BitVec 24) (begun : BitVec 4) (s : State) : (settingsLoad levels begun s).time = s.time := by
  unfold settingsLoad
  split
  · rfl
  · split
    · split
      · rfl
      · exact (occur_logOnly _ _ _ _).time
    · rfl

theorem prstnFall_time (p : Port) (s : State) : (prstnFall p s).time = s.time := by
  unfold prstnFall
  dsimp only
  split
  · rfl
  · split <;> rfl

theorem prstnRise_time (p : Port) (begun : Bool) (s : State) : (prstnRise p begun s).time = s.time := by
  unfold prstnRise
  split <;> rfl

theorem resetnFall_time (s : State) : (resetnFall s).time = s.time := by
  unfold resetnFall
  dsimp only
  split
  · rfl
  · split <;> rfl

theorem badFrame_time (p : Port) (bytes : List Byte) (trailing : Nat) (s : State) :
    (badFrame p bytes trailing s).time = s.time := by
  unfold badFrame
  split
  · split
    · rfl
    · exact (occur_logOnly _ _ _ _).time
  · rfl

theorem resultRead_time (p : Port) (s : State) : (resultRead p s).time = s.time := by
  unfold resultRead
  split <;> rfl

/-! ## Reads: they answer from the state and leave it as it is -/

theorem identify_state (p : Port) (args : List Byte) (s : State) : (identify p args s).state = s := by
  unfold identify
  split <;> rfl

theorem portStatus_state (p : Port) (args : List Byte) (s : State) : (portStatus p args s).state = s := by
  unfold portStatus
  split <;> rfl

theorem timeRead_state (args : List Byte) (s : State) : (timeRead args s).state = s := by
  unfold timeRead
  split <;> rfl

theorem timeReadScaled_state (args : List Byte) (s : State) : (timeReadScaled args s).state = s := by
  unfold timeReadScaled
  repeat' split
  all_goals rfl

theorem entryQuery_state (p : Port) (args : List Byte) (s : State) : (entryQuery p args s).state = s := by
  unfold entryQuery
  dsimp only
  repeat' split
  all_goals rfl

theorem scheduleList_state (p : Port) (args : List Byte) (s : State) : (scheduleList p args s).state = s := by
  unfold scheduleList
  split <;> rfl

theorem pinRead_state (args : List Byte) (s : State) : (pinRead args s).state = s := by
  unfold pinRead
  split <;> rfl

theorem vectorRead_state (p : Port) (args : List Byte) (s : State) : (vectorRead p args s).state = s := by
  unfold vectorRead
  split <;> rfl

theorem faultRead_state (args : List Byte) (s : State) : (faultRead args s).state = s := by
  unfold faultRead
  split <;> rfl

theorem settingsRead_state (args : List Byte) (s : State) : (settingsRead args s).state = s := by
  unfold settingsRead
  split <;> rfl

/-! ## Requests -/

/-- A request frame leaves alone what its rule leaves alone. -/
theorem request_sameCore {p : Port} {code : Byte} {s : State} {rule : State → Reply} (h : SameCore s (rule s).state) :
    SameCore s (request p code s rule) := by
  rcases request_cases p code s rule with ⟨e, -⟩ | ⟨e, -⟩ <;> rw [e]
  · exact ⟨rfl, rfl, rfl, rfl, rfl⟩
  · exact h.trans ⟨rfl, rfl, rfl, rfl, rfl⟩

theorem unknownRequest_sameCore (p : Port) (code : Byte) (args : List Byte) (s : State) :
    SameCore s (unknownRequest p code args s) := by
  unfold unknownRequest
  split
  · exact .refl s
  · exact request_sameCore (.refl s)

/-! Requests whose effect lies in another block's operation. -/

theorem refConfigure_sameCore (p : Port) (args : List Byte) (s : State) : SameCore s (refConfigure p args s).state := by
  unfold refConfigure
  repeat' split
  · exact .refl s
  · exact .refl s
  · exact .refl s
  · exact (SameCore.of_edgeOnly (enterState_edgeOnly _ _) (enterState_time _ _)).after ⟨rfl, rfl, rfl, rfl, rfl⟩

theorem placeTimed_fireOnly (e : Entry) (due : Nat) (s : State) : FireOnly s (placeTimed e due s) := by
  unfold placeTimed
  dsimp only
  split
  · exact (armEntry_fireOnly _ s).trans (takeDue_fireOnly _ _)
  · exact armEntry_fireOnly _ s

theorem scheduleAt_fireOnly (p : Port) (args : List Byte) (s : State) : FireOnly s (scheduleAt p args s).state := by
  unfold scheduleAt
  dsimp only
  repeat' split
  · exact .refl s
  · exact .refl s
  · exact .refl s
  · exact .refl s
  · exact placeTimed_fireOnly _ _ s

theorem cancelDrive_fireOnly (a : Armed) (s : State) : FireOnly s (cancelDrive a s) := by
  unfold cancelDrive
  repeat' split
  · exact .refl s
  · exact .refl s
  · exact expiryDrive_fireOnly a s

theorem cancel_fireOnly (p : Port) (args : List Byte) (s : State) : FireOnly s (cancel p args s).state := by
  unfold cancel
  dsimp only
  repeat' split
  · exact .refl s
  · exact (cancelDrive_fireOnly _ s).trans ⟨rfl⟩
  · exact ⟨rfl⟩
  · exact .refl s

theorem hold_sameCore (p : Port) (args : List Byte) (s : State) : SameCore s (hold p args s).state := by
  unfold hold
  repeat' split
  · exact .refl s
  · exact .refl s
  · exact enterHeld_sameCore s

theorem resume_sameCore (p : Port) (args : List Byte) (s : State) : SameCore s (resume p args s).state := by
  unfold resume
  repeat' split
  · exact .refl s
  · exact .refl s
  · exact .refl s
  · next t n htake =>
    have hfire := takeDue_fireOnly true { s with sched := { s.sched with held := false } }
    rw [htake] at hfire
    exact (SameCore.of_fireOnly hfire).after ⟨rfl, rfl, rfl, rfl, rfl⟩
  · exact .refl s

theorem pinRelease_fireOnly (p : Port) (args : List Byte) (s : State) : FireOnly s (pinRelease p args s).state := by
  unfold pinRelease
  repeat' split
  · exact .refl s
  · exact .refl s
  · exact .refl s
  · exact loseClaim_fireOnly _ _ _ s

/-! Requests that write fields of their own block. -/

theorem disciplineProfile_sameCore (p : Port) (args : List Byte) (s : State) :
    SameCore s (disciplineProfile p args s).state := by
  unfold disciplineProfile
  dsimp only
  repeat' split
  all_goals exact ⟨rfl, rfl, rfl, rfl, rfl⟩

theorem disciplineStatus_sameCore (p : Port) (args : List Byte) (s : State) :
    SameCore s (disciplineStatus p args s).state := by
  unfold disciplineStatus
  repeat' split
  all_goals exact ⟨rfl, rfl, rfl, rfl, rfl⟩

theorem scheduleOnEdge_sameCore (p : Port) (args : List Byte) (s : State) :
    SameCore s (scheduleOnEdge p args s).state := by
  unfold scheduleOnEdge
  dsimp only
  repeat' split
  all_goals exact ⟨rfl, rfl, rfl, rfl, rfl⟩

theorem scheduleConfigure_sameCore (p : Port) (args : List Byte) (s : State) :
    SameCore s (scheduleConfigure p args s).state := by
  unfold scheduleConfigure
  dsimp only
  repeat' split
  all_goals exact ⟨rfl, rfl, rfl, rfl, rfl⟩

theorem pinConfigure_sameCore (p : Port) (args : List Byte) (level : Level) (s : State) :
    SameCore s (pinConfigure p args level s).state := by
  unfold pinConfigure
  repeat' split
  all_goals exact ⟨rfl, rfl, rfl, rfl, rfl⟩

theorem pinClaim_sameCore (p : Port) (args : List Byte) (s : State) :
    SameCore s (pinClaim p args s).state := by
  unfold pinClaim
  repeat' split
  all_goals exact ⟨rfl, rfl, rfl, rfl, rfl⟩

theorem pinWrite_sameCore (p : Port) (args : List Byte) (s : State) :
    SameCore s (pinWrite p args s).state := by
  unfold pinWrite
  repeat' split
  all_goals exact ⟨rfl, rfl, rfl, rfl, rfl⟩

theorem subscribe_sameCore (p : Port) (args : List Byte) (s : State) :
    SameCore s (subscribe p args s).state := by
  unfold subscribe
  repeat' split
  all_goals exact ⟨rfl, rfl, rfl, rfl, rfl⟩

theorem eventRead_sameCore (p : Port) (args : List Byte) (s : State) :
    SameCore s (eventRead p args s).state := by
  unfold eventRead
  dsimp only
  repeat' split
  all_goals exact ⟨rfl, rfl, rfl, rfl, rfl⟩

theorem ringConfigure_sameCore (p : Port) (args : List Byte) (s : State) :
    SameCore s (ringConfigure p args s).state := by
  unfold ringConfigure ok
  dsimp only
  repeat' split
  all_goals exact ⟨rfl, rfl, rfl, rfl, rfl⟩

theorem vectorConfigure_sameCore (p : Port) (args : List Byte) (s : State) :
    SameCore s (vectorConfigure p args s).state := by
  unfold vectorConfigure
  repeat' split
  all_goals exact ⟨rfl, rfl, rfl, rfl, rfl⟩

theorem vectorAck_sameCore (p : Port) (args : List Byte) (s : State) :
    SameCore s (vectorAck p args s).state := by
  unfold vectorAck
  dsimp only
  repeat' split
  all_goals exact ⟨rfl, rfl, rfl, rfl, rfl⟩

theorem notifyControl_sameCore (p : Port) (args : List Byte) (s : State) :
    SameCore s (notifyControl p args s).state := by
  unfold notifyControl
  repeat' split
  all_goals exact ⟨rfl, rfl, rfl, rfl, rfl⟩

theorem faultClear_sameCore (p : Port) (args : List Byte) (s : State) :
    SameCore s (faultClear p args s).state := by
  unfold faultClear
  repeat' split
  all_goals exact ⟨rfl, rfl, rfl, rfl, rfl⟩

theorem faultConfigure_sameCore (p : Port) (args : List Byte) (s : State) :
    SameCore s (faultConfigure p args s).state := by
  unfold faultConfigure
  repeat' split
  all_goals exact ⟨rfl, rfl, rfl, rfl, rfl⟩

theorem faultRecordClear_sameCore (p : Port) (args : List Byte) (s : State) :
    SameCore s (faultRecordClear p args s).state := by
  unfold faultRecordClear
  repeat' split
  all_goals exact ⟨rfl, rfl, rfl, rfl, rfl⟩

theorem settingsClaim_sameCore (p : Port) (args : List Byte) (s : State) :
    SameCore s (settingsClaim p args s).state := by
  unfold settingsClaim
  repeat' split
  all_goals exact ⟨rfl, rfl, rfl, rfl, rfl⟩

theorem settingsRelease_sameCore (p : Port) (args : List Byte) (s : State) :
    SameCore s (settingsRelease p args s).state := by
  unfold settingsRelease
  repeat' split
  all_goals exact ⟨rfl, rfl, rfl, rfl, rfl⟩

theorem portLimitsSet_sameCore (p : Port) (args : List Byte) (s : State) :
    SameCore s (portLimitsSet p args s).state := by
  unfold portLimitsSet
  dsimp only
  repeat' split
  all_goals exact ⟨rfl, rfl, rfl, rfl, rfl⟩

theorem writeStore_sameCore (p : Port) (args : List Byte) (freeze : Bool) (s : State) :
    SameCore s (writeStore p args freeze s).state := by
  unfold writeStore
  repeat' split
  all_goals exact ⟨rfl, rfl, rfl, rfl, rfl⟩

theorem leaseSet_sameCore (p : Port) (args : List Byte) (s : State) :
    SameCore s (leaseSet p args s).state := by
  unfold leaseSet
  repeat' split
  all_goals exact ⟨rfl, rfl, rfl, rfl, rfl⟩

theorem leaseRenew_sameCore (p : Port) (args : List Byte) (s : State) :
    SameCore s (leaseRenew p args s).state := by
  unfold leaseRenew
  repeat' split
  all_goals exact ⟨rfl, rfl, rfl, rfl, rfl⟩

/-! ## TIME SET and the two resets by request -/

theorem timeSet_forward (p : Port) (args : List Byte) (s : State) : HubTimeForward s (timeSet p args s).state := by
  unfold timeSet
  dsimp only
  repeat' split
  · exact .of_time rfl
  · exact .of_time rfl
  · exact .of_time rfl
  · exact .of_time rfl
  · exact .of_time rfl
  · exact .of_time rfl
  · exact forwardStep_forward _ s

theorem request_forward {p : Port} {code : Byte} {s : State} {rule : State → Reply} (h : HubTimeForward s (rule s).state) :
    HubTimeForward s (request p code s rule) := by
  rcases request_cases p code s rule with ⟨e, -⟩ | ⟨e, -⟩ <;> rw [e]
  · exact .of_time rfl
  · exact h.trans (.of_time rfl)

/-- A request that leaves the time counter alone. -/
theorem request_forward_of_sameCore {p : Port} {code : Byte} {s : State} {rule : State → Reply}
    (h : SameCore s (rule s).state) : HubTimeForward s (request p code s rule) :=
  .of_time (request_sameCore h).time

theorem portReset_forward {p : Port} {args : List Byte} {s t : State} (h : exec (.portReset p args) s = .next t) :
    HubTimeForward s t := by
  cases h
  split
  · exact request_forward_of_sameCore (.refl s)
  · split <;> exact .of_time rfl

theorem hubReset_forward {p : Port} {args : List Byte} {s t : State} (h : exec (.hubReset p args) s = .next t) :
    HubTimeForward s t := by
  cases h
  split
  · exact request_forward_of_sameCore (.refl s)
  · split <;> exact .of_time rfl

/-! ## Every command -/

/-- ADVANCE takes neither count back and keeps both within 64 bits (R1, R2, R3). -/
theorem execAdvance_forward {s t : State} (h : exec .advance s = .next t) (hht : s.time.ht ≤ 2 ^ 64 - 1)
    (hrt : s.time.rt ≤ 2 ^ 64 - 1) :
    (s.time.ht ≤ t.time.ht ∧ t.time.ht ≤ 2 ^ 64 - 1) ∧ (s.time.rt ≤ t.time.rt ∧ t.time.rt ≤ 2 ^ 64 - 1) := by
  obtain ⟨ht, htFrac, rt, rtFrac, htime, hadvht, hadvrt⟩ := TimeCounter.advance_spec (increment s.disc.f s.disc.s) s.time
  cases h
  split
  · rw [htime]
    exact ⟨Advanced_forward hadvht hht, Advanced_forward hadvrt hrt⟩
  · exact ⟨⟨le_refl _, hht⟩, le_refl _, hrt⟩

/-- While supply stays, no command but an advance moves run time, and none takes hub time back (R1, R3). -/
theorem exec_forward {c : Instr} {s t : State} (h : exec c s = .next t) (hadvance : c ≠ .advance) (hon : c ≠ .powerOn)
    (hloss : c ≠ .powerLoss) : HubTimeForward s t := by
  cases c with
  | powerOn => exact absurd rfl hon
  | resetnFall => cases h; exact .of_time (resetnFall_time s)
  | settingsLoad seen => cases h; exact .of_time (settingsLoad_time _ _ s)
  | prstnFall p => cases h; exact .of_time (prstnFall_time p s)
  | advance => exact absurd rfl hadvance
  | expiry => cases h; exact .of_time (expiry_time s)
  | activeEdge change => cases h; exact activeEdge_forward change s
  | miss => cases h; exact .of_time (miss_time s)
  | transition pin level => cases h; exact .of_time (transition_time pin level s)
  | debounceWindowEnd pin level => cases h; exact .of_time (debounceWindowEnd_time pin level s)
  | contentionCheck pin level => cases h; exact .of_time (contentionCheck_time pin level s)
  | leaseExpiry p => cases h; exact .of_time (leaseExpiry_time p s)
  | storeCompletion verified => cases h; exact .of_time (storeCompletion_time verified s)
  | holdNotice => cases h; exact .of_time (takeHoldNotice_time s)
  | badFrame p bytes trailing => cases h; exact .of_time (badFrame_time p bytes trailing s)
  | unknownRequest p code args => cases h; exact .of_time (unknownRequest_sameCore p code args s).time
  | resultRead p => cases h; exact .of_time (resultRead_time p s)
  | identify p args => cases h; exact request_forward_of_sameCore (.of_eq (identify_state p args s))
  | portStatus p args => cases h; exact request_forward_of_sameCore (.of_eq (portStatus_state p args s))
  | portReset p args => exact portReset_forward h
  | leaseSet p args => cases h; exact request_forward_of_sameCore (leaseSet_sameCore p args s)
  | leaseRenew p args => cases h; exact request_forward_of_sameCore (leaseRenew_sameCore p args s)
  | timeRead p args => cases h; exact request_forward_of_sameCore (.of_eq (timeRead_state args s))
  | timeReadScaled p args => cases h; exact request_forward_of_sameCore (.of_eq (timeReadScaled_state args s))
  | timeSet p args => cases h; exact request_forward (timeSet_forward p args s)
  | refConfigure p args => cases h; exact request_forward_of_sameCore (refConfigure_sameCore p args s)
  | disciplineProfile p args => cases h; exact request_forward_of_sameCore (disciplineProfile_sameCore p args s)
  | disciplineStatus p args => cases h; exact request_forward_of_sameCore (disciplineStatus_sameCore p args s)
  | scheduleAt p args => cases h; exact request_forward_of_sameCore (.of_fireOnly (scheduleAt_fireOnly p args s))
  | scheduleOnEdge p args => cases h; exact request_forward_of_sameCore (scheduleOnEdge_sameCore p args s)
  | cancel p args => cases h; exact request_forward_of_sameCore (.of_fireOnly (cancel_fireOnly p args s))
  | entryQuery p args => cases h; exact request_forward_of_sameCore (.of_eq (entryQuery_state p args s))
  | scheduleList p args => cases h; exact request_forward_of_sameCore (.of_eq (scheduleList_state p args s))
  | hold p args => cases h; exact request_forward_of_sameCore (hold_sameCore p args s)
  | resume p args => cases h; exact request_forward_of_sameCore (resume_sameCore p args s)
  | scheduleConfigure p args => cases h; exact request_forward_of_sameCore (scheduleConfigure_sameCore p args s)
  | pinConfigure p args level => cases h; exact request_forward_of_sameCore (pinConfigure_sameCore p args level s)
  | pinClaim p args => cases h; exact request_forward_of_sameCore (pinClaim_sameCore p args s)
  | pinRelease p args => cases h; exact request_forward_of_sameCore (.of_fireOnly (pinRelease_fireOnly p args s))
  | pinWrite p args => cases h; exact request_forward_of_sameCore (pinWrite_sameCore p args s)
  | pinRead p args => cases h; exact request_forward_of_sameCore (.of_eq (pinRead_state args s))
  | subscribe p args => cases h; exact request_forward_of_sameCore (subscribe_sameCore p args s)
  | eventRead p args => cases h; exact request_forward_of_sameCore (eventRead_sameCore p args s)
  | ringConfigure p args => cases h; exact request_forward_of_sameCore (ringConfigure_sameCore p args s)
  | vectorConfigure p args => cases h; exact request_forward_of_sameCore (vectorConfigure_sameCore p args s)
  | vectorAck p args => cases h; exact request_forward_of_sameCore (vectorAck_sameCore p args s)
  | notifyControl p args => cases h; exact request_forward_of_sameCore (notifyControl_sameCore p args s)
  | vectorRead p args => cases h; exact request_forward_of_sameCore (.of_eq (vectorRead_state p args s))
  | faultRead p args => cases h; exact request_forward_of_sameCore (.of_eq (faultRead_state args s))
  | faultClear p args => cases h; exact request_forward_of_sameCore (faultClear_sameCore p args s)
  | faultConfigure p args => cases h; exact request_forward_of_sameCore (faultConfigure_sameCore p args s)
  | faultRecordClear p args => cases h; exact request_forward_of_sameCore (faultRecordClear_sameCore p args s)
  | settingsClaim p args => cases h; exact request_forward_of_sameCore (settingsClaim_sameCore p args s)
  | settingsRelease p args => cases h; exact request_forward_of_sameCore (settingsRelease_sameCore p args s)
  | portLimitsSet p args => cases h; exact request_forward_of_sameCore (portLimitsSet_sameCore p args s)
  | settingsRead p args => cases h; exact request_forward_of_sameCore (.of_eq (settingsRead_state args s))
  | storeWrite p args => cases h; exact request_forward_of_sameCore (writeStore_sameCore p args _ s)
  | storeFreeze p args => cases h; exact request_forward_of_sameCore (writeStore_sameCore p args _ s)
  | hubReset p args => exact hubReset_forward h
  | prstnRise rise => cases h; exact .of_time (prstnRise_time _ _ s)
  | resetnRise => cases h; exact .of_time rfl
  | powerLoss => exact absurd rfl hloss

/-- Settles O13: `exec_forward` for every command but ADVANCE, and the carry of R1 for that one. -/
theorem timeRunsForward : Obligations.TimeRunsForward := by
  intro c s t hexec hon hloss hht hrt
  by_cases hadvance : c = .advance
  · subst hadvance
    obtain ⟨hht', hrt'⟩ := execAdvance_forward hexec hht hrt
    exact ⟨hht'.1, hht'.2, hrt'.1, hrt'.2, fun hne => absurd rfl hne⟩
  · have hforward := exec_forward hexec hadvance hon hloss
    obtain ⟨hle, hmax⟩ := hforward.ht hht
    exact ⟨hle, hmax, hforward.rt.ge, hforward.rt.trans_le hrt, fun _ => ⟨hforward.rt, hforward.rtFrac⟩⟩

end Sys2Proof.Machine
end

section
/-! SUPPORT. The values at power-on and what a cut of supply does to the settings image (R5, R181, R200). -/

namespace Sys2Proof.Machine

open Sys2Proof.Safety

/-- An idle store keeps its image; a write that is abandoned leaves one that no load finds valid (R181). -/
theorem abandonWrite_image (u : SettingsUnit) :
    (u.store.isWriting = false → u.abandonWrite.image = u.image) ∧
      (u.store.isWriting = true → u.abandonWrite.image.settings = none) := by
  unfold SettingsUnit.abandonWrite
  cases u.store with
  | valid => exact ⟨fun _ => rfl, fun h => absurd h (by decide)⟩
  | invalid => exact ⟨fun _ => rfl, fun h => absurd h (by decide)⟩
  | writing snapshot takenAt freeze => exact ⟨fun h => absurd h (by simp [StoreState.isWriting]), fun _ => rfl⟩

/-- A state that differs from `State.reset` only in what supply does not hold: RESETn, the image, the ports' PRSTn lines, the model's
own counter and queue. -/
structure ResetButKept (t : State) : Prop where
  eq : ∃ resetnLow image ports choices pending, t = { State.reset with
    resetnLow := resetnLow, settings := { SettingsUnit.reset with image := image }, ports := ports, choices := choices,
    pending := pending }
  ports : ∀ p, ∃ low, t.ports.get p = { PortState.reset with prstnLow := low }

theorem ResetButKept.atPowerOn {t : State} (h : ResetButKept t) : AtPowerOn t := by
  obtain ⟨⟨resetnLow, image, ports, choices, pending, rfl⟩, hports⟩ := h
  constructor
  case ports =>
    intro p
    obtain ⟨low, hp⟩ := hports p
    rw [hp]
    exact ⟨rfl, rfl, rfl, rfl, rfl, rfl⟩
  case time => rfl
  case load => rfl
  case freerun => exact ⟨rfl, rfl, rfl, rfl⟩
  case trims => exact ⟨rfl, rfl, rfl, fun p => Tab.get_fill _ p⟩
  case schedule => exact ⟨rfl, rfl, rfl⟩
  case settings => exact ⟨rfl, rfl⟩
  case pins => simp [State.reset, PinCell.reset]
  case capture => simp [State.reset]
  case rings => simp [State.reset, Ring.reset]
  case vectors => simp [State.reset, NotifyUnit.reset]
  case faults => simp [State.reset, FaultLog.reset, defaultSeverity]

theorem State.reset_kept : ResetButKept State.reset :=
  ⟨⟨_, _, _, _, _, rfl⟩, fun p => ⟨false, Tab.get_fill _ p⟩⟩

theorem powerOnValues_kept (s : State) : ResetButKept (powerOnValues s) :=
  ⟨⟨_, _, _, _, _, rfl⟩, fun p => ⟨(s.ports.get p).prstnLow, Tab.get_map _ _ p⟩⟩

theorem exec_powerLoss {s : State} (h : s.powered = true) :
    exec .powerLoss s = .next { powerOnValues s with powered := false } := by
  change Host.Outcome.next (powerLoss s) = _
  rw [powerLoss, if_pos h]

theorem takesFrames_of_unpowered {s : State} (h : s.powered = false) (p : Port) : s.takesFrames p = false := by
  simp [State.takesFrames, h]

/-- Settles O3: the power-on values by `ResetButKept`, and the image by `abandonWrite_image`. -/
theorem supplyEventsGivePowerOnValues : Obligations.SupplyEventsGivePowerOnValues := by
  refine ⟨fun s => ?powerOn, fun s hpowered => ?powerLoss, State.reset_kept.atPowerOn⟩
  case powerOn =>
    obtain ⟨hkept, hcut⟩ := abandonWrite_image s.settings
    exact ⟨powerOnValues s, rfl, (powerOnValues_kept s).atPowerOn, rfl, hkept, hcut⟩
  case powerLoss =>
    obtain ⟨hkept, hcut⟩ := abandonWrite_image s.settings
    exact ⟨_, exec_powerLoss hpowered, rfl, takesFrames_of_unpowered rfl, hkept, hcut⟩

end Sys2Proof.Machine
end

section
/-! SUPPORT. The reads of state: the bytes of their results (R10, R11, R86, R174, R189, R190). -/

namespace Sys2Proof.Machine

open Sys2Proof.Safety

/-! ## Sets of flags as numbers (R201) -/

theorem bitAt_zero (b : Bool) : bitAt 0 b = b.toNat := by
  cases b <;> rfl

theorem bitAt_succ (k : Nat) (b : Bool) : bitAt (k + 1) b = 2 * bitAt k b := by
  cases b
  · rfl
  · exact Nat.pow_succ'

/-- A sum of flags, each in the bit of its own number, is the number with these bits. -/
theorem sum_bitAt_eq_ofBits {n : Nat} (f : Fin n → Bool) :
    ((List.finRange n).map fun k => bitAt k.val (f k)).sum = Nat.ofBits f := by
  induction n with
  | zero => rfl
  | succ n ih =>
    have hdouble : ((List.finRange n).map fun k : Fin n => 2 * bitAt k.val (f k.succ)).sum = 2 * Nat.ofBits (f ∘ Fin.succ) := by
      rw [List.sum_map_mul_left, ← ih]
      rfl
    rw [List.finRange_succ, List.map_cons, List.sum_cons, List.map_map, Nat.ofBits_succ, ← hdouble, Nat.add_comm, ← bitAt_zero]
    simp [Function.comp_def, bitAt_succ]

theorem allPins_eq_finRange : allPins = List.finRange 24 := by decide

/-- The set of the pins that a port holds has 24 bits, bit k for HPk (R190, R201). -/
theorem claimedPins_eq_ofBits (p : Port) (s : State) : claimedPins p s = Nat.ofBits fun k => s.holdsPin p k := by
  rw [claimedPins, allPins_eq_finRange, sum_bitAt_eq_ofBits]

theorem claimedPins_lt (p : Port) (s : State) : claimedPins p s < 2 ^ 24 := by
  rw [claimedPins_eq_ofBits]
  exact Nat.ofBits_lt_two_pow _

theorem testBit_claimedPins (p : Port) (s : State) (k : Pin) :
    (claimedPins p s).testBit k.val = decide ((s.pins.get k).holder = some p) := by
  rw [claimedPins_eq_ofBits, Nat.testBit_ofBits_lt _ _ k.isLt]
  rfl

/-! ## SETTINGS READ -/

/-- The first 93 bytes of a SETTINGS READ and of the image: all that R175 lists before the byte of the flags. -/
def Settings.head (w : Settings) : List Byte :=
  (allPins.flatMap fun k => beN 2 (w.pins.get k).word) ++
    allPorts.map (fun p => b1 (w.quotas.get p)) ++
    (allPorts.flatMap fun p => beN 2 (w.leases.get p)) ++
    beN 4 w.ref.trefUs ++ [w.ref.byte] ++ w.profile.bytes ++ beN 4 w.lateThreshold ++
    beN 2 (kindSet fun k => w.masks.get k) ++
    beN 2 (kindSet fun k => decide (w.severities.get k = .major))

theorem Settings.bytes_eq (w : Settings) (storeCode : Nat) :
    w.bytes storeCode = w.head ++ [b1 (bitAt 0 w.safeOnMajor + bitAt 1 w.frozen + 4 * storeCode)] := rfl

theorem Settings.length_head (w : Settings) : w.head.length = 93 := by
  simp [Settings.head, Profile.bytes, allPins, allPorts]

theorem take_imageOf (w : Settings) : (imageOf w).take 93 = w.head := by
  simp only [imageOf, Settings.bytes_eq, List.append_assoc]
  exact List.take_left' w.length_head

theorem settingsRead_nil (s : State) :
    settingsRead [] s = ok s ((imageOf (workingSettings s)).take 93 ++
      [b1 ((if s.faults.safeOnMajor then 1 else 0) + (if s.settings.frozen then 2 else 0) + 4 * s.settings.store.code),
        b1 (portNibble s.settings.holder + 16 * portNibble s.settings.requester)]) := by
  simp [settingsRead, take_imageOf, Settings.bytes_eq, workingSettings, bitAt]

/-! ## PIN READ -/

/-- The number that a PIN READ gives for a pin: direction, level in bit 2, holder in bits 7 to 4 (R86, R203). -/
def pinReadCell (s : State) (k : Pin) : Nat :=
  (s.pins.get k).map.dir.code + bitAt 2 (s.levelShown k) + 16 * portNibble (s.pins.get k).holder

/-- The level shown is the driven level of an OUT pin and the confirmed level of an IN pin. -/
theorem bitAt_levelShown (s : State) (k : Pin) :
    bitAt 2 (s.levelShown k) = match (s.pins.get k).map.dir with
      | .output => if (s.pins.get k).driven = some true then 4 else 0
      | .input => if (s.watch.get k).any (·.confirmed) then 4 else 0
      | .unused => 0 := by
  unfold State.levelShown
  cases (s.pins.get k).map.dir with
  | unused => rfl
  | output => cases (s.pins.get k).driven <;> simp [bitAt]
  | input => cases s.watch.get k <;> simp [bitAt]

/-! ## The reads as frames -/

/-- A request that its rule carries out without a change of state writes its data into the buffer and changes nothing else. -/
theorem request_ok {p : Port} {code : Byte} {s : State} {rule : State → Reply} {data : List Byte}
    (h : s.takesFrames p = true) (hrule : rule s = ok s data) : request p code s rule = answer p ⟨.ok, code, data⟩ s := by
  rw [request_taken h, hrule]
  rfl

theorem timeReadScaled_of_le {n : Nat} (h : n ≤ 32) (s : State) :
    timeReadScaled [b1 n] s = ok s (b1 n :: beN 4 (s.time.ht / 2 ^ n % 2 ^ 32)) := by
  have hn : n % 256 = n := Nat.mod_eq_of_lt (by omega)
  rw [show (2 : Nat) ^ 32 = 256 ^ 4 by norm_num, beN_mod]
  simp [timeReadScaled, hn, Nat.not_lt.2 h]

theorem timeReadScaled_of_gt {n : Nat} (h : 33 ≤ n) (hbyte : n ≤ 255) (s : State) :
    timeReadScaled [b1 n] s = refuse s .badArgument := by
  have hn : n % 256 = n := Nat.mod_eq_of_lt (by omega)
  have hlt : 32 < n := h
  simp [timeReadScaled, hn, hlt]

/-- Settles O41: each read's rule by its branch for the right argument length, with `request_ok`. -/
theorem stateReadsChangeNothing : Obligations.StateReadsChangeNothing := by
  intro p s htakes
  refine ⟨?identify, ⟨(s.ports.get p).lease.left s.time.rt, claimedPins p s, ?portStatus, ?running, ?notRunning,
    claimedPins_lt p s, testBit_claimedPins p s⟩, ?timeRead, fun n hn => ?scaled, fun n hn hbyte => ?tooFar,
    ⟨pinReadCell s, ?pinRead, fun k => ?cell⟩, ?settingsRead⟩
  case identify => exact congrArg _ (request_ok htakes rfl)
  case portStatus => exact congrArg _ (request_ok htakes rfl)
  case running =>
    intro point h
    rw [h]
    rfl
  case notRunning =>
    rintro (h | h) <;> rw [h] <;> rfl
  case timeRead => exact congrArg _ (request_ok htakes (by simp [timeRead, State.isLocked, bBool]))
  case scaled => exact congrArg _ (request_ok htakes (timeReadScaled_of_le hn s))
  case tooFar =>
    have hrefused := request_taken htakes 0x11#8 (timeReadScaled [b1 n])
    rw [timeReadScaled_of_gt hn hbyte] at hrefused
    exact congrArg _ hrefused
  case pinRead => exact congrArg _ (request_ok htakes rfl)
  case cell => exact congrArg (_ + · + _) (bitAt_levelShown s k)
  case settingsRead => exact congrArg _ (request_ok htakes (settingsRead_nil s))

end Sys2Proof.Machine
end

section
/-! SUPPORT. The phase error (R19), and what an accepted edge, a reference loss and a REF CONFIGURE make of the discipline unit
(R17, R21 to R28, R31), as functions of the unit alone. What the operations report stands apart. -/

namespace Sys2Proof.Machine

open Sys2Proof.Safety

/-! ## The phase error -/

theorem phaseError_of_le {c half : Nat} (h : c % (2 * half) ≤ half) : phaseError c (2 * half) = (c % (2 * half) : Nat) := by
  simp [phaseError, h]

theorem phaseError_of_gt {c half : Nat} (h : half < c % (2 * half)) :
    phaseError c (2 * half) = (c % (2 * half) : Nat) - (2 * half : Nat) := by
  simp [phaseError, Nat.not_le.2 h]

/-- The phase error lies within half a Tref of 0, above on the negative side (R19). -/
theorem phaseError_range (c : Nat) {half : Nat} (h : 0 < half) :
    -(half : Int) + 1 ≤ phaseError c (2 * half) ∧ phaseError c (2 * half) ≤ half := by
  have hmod : c % (2 * half) < 2 * half := Nat.mod_lt _ (by omega)
  rcases le_or_gt (c % (2 * half)) half with hle | hgt
  · rw [phaseError_of_le hle]
    omega
  · rw [phaseError_of_gt hgt]
    omega

/-- Settles O16: the two branches of R19, and the manual's examples by evaluation. -/
theorem phaseErrorIsTheDistanceToAMultiple : Obligations.PhaseErrorIsTheDistanceToAMultiple := by
  refine ⟨fun c half hhalf => ⟨?branches, phaseError_range c hhalf⟩, by decide, by decide⟩
  case branches =>
    rcases le_or_gt (c % (2 * half)) half with hle | hgt
    · exact .inl ⟨phaseError_of_le hle, hle⟩
    · exact .inr ⟨phaseError_of_gt hgt, hgt⟩

/-- With Tref in its range every phase error lies within 500 ms. -/
theorem RefConfig.phaseError_range {c : RefConfig} (h : 1000 ≤ c.trefUs ∧ c.trefUs ≤ 1000000) (stamp : Nat) :
    -500000000 ≤ phaseError stamp c.trefNs ∧ phaseError stamp c.trefNs ≤ 500000000 := by
  obtain ⟨hlo, hhi⟩ := Machine.phaseError_range stamp (half := c.trefUs * 500) (by omega)
  rw [show 2 * (c.trefUs * 500) = c.trefNs by unfold trefNs; omega] at hlo hhi
  omega

/-! ## Operations that leave the unit alone, and a change of state -/

theorem enterState_disc (new : DiscState) (s : State) : (enterState new s).disc = { s.disc with state := new } := by
  unfold enterState
  dsimp only
  split
  · rfl
  · exact (reportChange_logOnly _ _ _).disc

theorem forwardStep_disc (d : Nat) (s : State) : (forwardStep d s).disc = s.disc := by
  obtain ⟨draws, horders⟩ := stepNotices_orders ((s.time.step d).ht - s.time.ht) { s with time := s.time.step d }
  exact horders.fireOnly.disc

/-! ## Accepted edges -/

/-- The unit after an edge in SEARCH or HOLDOVER, of which the second of a run leads to `new` (R22, R23). -/
def Discipline.countPair (new : DiscState) (d : Discipline) : Discipline :=
  if d.pairCount = 0 then { d with pairCount := 1 } else { d with state := new, window := [], pairCount := 0 }

/-- The unit after the end of a window that the phase error `e` ends, with the state `new` where all lie within `bound`. -/
def Discipline.endWindowBy (e : Int) (n m bound : Nat) (new : DiscState) (d : Discipline) : Discipline :=
  { d.endWindow (d.window ++ [e]) n m with state := if ∀ x ∈ d.window ++ [e], x.natAbs ≤ bound then new else d.state }

/-- The phase error that ends an ACQUIRE window calls for a forward step (R25). -/
abbrev Discipline.StepsAt (e : Int) (d : Discipline) : Prop := e < -(d.profile.stepTh : Int) ∧ d.cfg.stepEnable = true

/-- The unit after the phase error of an edge in ACQUIRE (R24, R25). -/
def Discipline.intoAcquire (e : Int) (d : Discipline) : Discipline :=
  if d.window.length < 3 then { d with window := d.window ++ [e] }
  else if d.StepsAt e then { d.endWindow (d.window ++ [e]) 3 8 with s := 0 }
  else d.endWindowBy e 3 8 d.profile.trkIn .track

/-- The unit after a phase error put into a TRACK or LOCKED window (R26, R27). -/
def Discipline.intoLong (e : Int) (d : Discipline) : Discipline :=
  if d.window.length < 15 then { d with window := d.window ++ [e] } else d.endWindowBy e 15 64 d.profile.lockIn .locked

/-- The unit after an UNLOCK (R27). -/
def Discipline.unlocked (d : Discipline) : Discipline := { d with state := .track, window := [], unlockSeen := .fill 4 true }

/-- The unit after the handling of an accepted edge with phase error `e` (R22 to R27). -/
def Discipline.afterEdge (e : Int) (d : Discipline) : Discipline :=
  match d.state with
  | .freerun => d
  | .search => d.countPair .acquire
  | .acquire => d.intoAcquire e
  | .track => if d.profile.acqIn < e.natAbs then { d with state := .acquire, window := [] } else d.intoLong e
  | .locked => if d.profile.lockOut < e.natAbs then d.unlocked else d.intoLong e
  | .holdover => d.countPair (if e.natAbs ≤ d.profile.acqIn then .track else .acquire)

theorem allWithin_iff {w : List Int} {bound : Nat} : allWithin w bound = true ↔ ∀ x ∈ w, x.natAbs ≤ bound := by
  simp [allWithin]

/-- A window end that goes to `new` where all phase errors lie within `bound`, and otherwise stays. -/
theorem ite_enterState_disc (e : Int) (n m bound : Nat) (new : DiscState) {s t : State}
    (h : t.disc = s.disc.endWindow (s.disc.window ++ [e]) n m) :
    (if allWithin (s.disc.window ++ [e]) bound then enterState new t else t).disc = s.disc.endWindowBy e n m bound new := by
  unfold Discipline.endWindowBy
  split
  · next hall => rw [enterState_disc, h, if_pos (allWithin_iff.1 hall)]
  · next hall =>
    rw [h, if_neg (mt allWithin_iff.2 hall)]
    rfl

theorem edgeInSearch_disc (s : State) : (edgeInSearch s).disc = s.disc.countPair .acquire := by
  unfold edgeInSearch Discipline.countPair
  split
  · rfl
  · exact enterState_disc _ _

theorem edgeInHoldover_disc (e : Int) (s : State) :
    (edgeInHoldover e s).disc = s.disc.countPair (if e.natAbs ≤ s.disc.profile.acqIn then .track else .acquire) := by
  unfold edgeInHoldover Discipline.countPair
  split
  · rfl
  · exact enterState_disc _ _

theorem edgeInAcquire_disc (e : Int) (s : State) : (edgeInAcquire e s).disc = s.disc.intoAcquire e := by
  unfold edgeInAcquire Discipline.intoAcquire
  simp only [List.length_append, List.length_singleton, Nat.add_lt_add_iff_right, show (4 : Nat) = 3 + 1 from rfl]
  split
  · rfl
  · split
    · exact forwardStep_disc _ _
    · exact ite_enterState_disc e 3 8 _ _ rfl

theorem intoLongWindow_disc (e : Int) (s : State) : (intoLongWindow e s).disc = s.disc.intoLong e := by
  unfold intoLongWindow Discipline.intoLong
  simp only [List.length_append, List.length_singleton, Nat.add_lt_add_iff_right, show (16 : Nat) = 15 + 1 from rfl]
  split
  · rfl
  · exact ite_enterState_disc e 15 64 _ _ rfl

theorem unlock_disc (e : Int) (s : State) : (unlock e s).disc = s.disc.unlocked := by
  unfold unlock
  dsimp only
  split
  · exact (occur_logOnly _ _ _ _).disc
  · split
    · exact ((occur_logOnly _ _ _ _).trans (reportChange_logOnly _ _ _)).disc
    · exact ((reportChange_logOnly _ _ _).trans (occur_logOnly _ _ _ _)).disc

theorem edgeInTrack_disc (e : Int) (s : State) : (edgeInTrack e s).disc =
    if s.disc.profile.acqIn < e.natAbs then { s.disc with state := .acquire, window := [] } else s.disc.intoLong e := by
  unfold edgeInTrack
  split
  · exact enterState_disc _ _
  · exact intoLongWindow_disc _ s

theorem edgeInLocked_disc (e : Int) (s : State) : (edgeInLocked e s).disc =
    if s.disc.profile.lockOut < e.natAbs then s.disc.unlocked else s.disc.intoLong e := by
  unfold edgeInLocked
  split
  · exact unlock_disc _ s
  · exact intoLongWindow_disc _ s

theorem handleEdge_disc (s : State) : (handleEdge s).disc = s.disc.afterEdge s.disc.lastE := by
  unfold handleEdge Discipline.afterEdge
  cases hstate : s.disc.state with
  | freerun => rfl
  | search => exact edgeInSearch_disc s
  | acquire => exact edgeInAcquire_disc _ s
  | track => exact edgeInTrack_disc _ s
  | locked => exact edgeInLocked_disc _ s
  | holdover => exact edgeInHoldover_disc _ s

/-! ## What the handling of an edge leaves alone -/

/-- The fields that the handling of an accepted edge leaves alone. -/
structure Discipline.EdgeKept (d d' : Discipline) : Prop where
  cfg : d'.cfg = d.cfg
  profile : d'.profile = d.profile
  refPoint : d'.refPoint = d.refPoint
  firstEdge : d'.firstEdge = d.firstEdge
  nextMiss : d'.nextMiss = d.nextMiss
  missCount : d'.missCount = d.missCount
  lastE : d'.lastE = d.lastE
  lastEBefore : d'.lastEBefore = d.lastEBefore

theorem Discipline.afterEdge_kept (e : Int) (d : Discipline) : d.EdgeKept (d.afterEdge e) := by
  unfold afterEdge countPair intoAcquire intoLong
  constructor <;> repeat' split
  all_goals rfl

/-! ## The table of transitions -/

theorem Discipline.countPair_state (new : DiscState) (d : Discipline) :
    (d.countPair new).state = if d.pairCount = 0 then d.state else new := by
  unfold countPair
  split <;> rfl

theorem Discipline.intoAcquire_state (e : Int) (d : Discipline) :
    (d.intoAcquire e).state = if d.window.length < 3 then d.state else if d.StepsAt e then d.state
      else if ∀ x ∈ d.window ++ [e], x.natAbs ≤ d.profile.trkIn then .track else d.state := by
  unfold intoAcquire endWindowBy
  split
  · rfl
  · split <;> rfl

theorem Discipline.intoLong_state (e : Int) (d : Discipline) :
    (d.intoLong e).state = if d.window.length < 15 then d.state
      else if ∀ x ∈ d.window ++ [e], x.natAbs ≤ d.profile.lockIn then .locked else d.state := by
  unfold intoLong endWindowBy
  split <;> rfl

/-- The state after an accepted edge is that of the table of transitions (R22 to R27). -/
theorem Discipline.afterEdge_state (e : Int) (d : Discipline) : (d.afterEdge e).state = nextDiscState d e := by
  unfold afterEdge nextDiscState
  cases hstate : d.state with
  | freerun => exact hstate
  | search => simp only [countPair_state, hstate]
  | holdover => simp only [countPair_state, hstate]
  | acquire => simp only [intoAcquire_state, hstate]
  | track =>
    dsimp only
    split
    · rfl
    · simp only [intoLong_state, hstate]
  | locked =>
    dsimp only
    split
    · rfl
    · simp only [intoLong_state, hstate, ite_self]

/-! ## The reference loss -/

theorem DiscState.afterLoss_untrimmed (d : DiscState) : Untrimmed d.afterLoss := by
  cases d <;> decide

theorem DiscState.afterLoss_eq (d : DiscState) : d.afterLoss = stateAtLoss d := by
  cases d <;> rfl

theorem referenceLoss_disc (s : State) : (referenceLoss s).disc = { s.disc with state := s.disc.state.afterLoss, s := 0 } := by
  unfold referenceLoss loseReference
  rw [enterState_disc, (occur_logOnly _ _ _ _).disc]

/-! ## REF CONFIGURE -/

/-- The unit with the fields that a passing REF CONFIGURE sets, in the state as it was (R17, R31, R32). -/
def Discipline.reconfigured (rt : Nat) (c : RefConfig) (d : Discipline) : Discipline :=
  let e := if d.edgeNow rt then d.lastEBefore else d.lastE
  let d1 := { d with cfg := c, window := [], pairCount := 0, missCount := 0, s := 0, lastE := e }
  if c.enabled then d1.enable rt else d1

/-- The state to which a passing REF CONFIGURE goes (R31). -/
def RefConfig.firstState (c : RefConfig) : DiscState := if c.enabled then .search else .freerun

theorem refConfigured_eq (c : RefConfig) (s : State) :
    refConfigured c s = enterState c.firstState { s with disc := s.disc.reconfigured s.time.rt c } := rfl

/-- The fields after a passing REF CONFIGURE, enabled or not. -/
structure Discipline.Reconfigured (rt : Nat) (c : RefConfig) (d d' : Discipline) : Prop where
  cfg : d'.cfg = c
  profile : d'.profile = d.profile
  state : d'.state = d.state
  window : d'.window = []
  pairCount : d'.pairCount = 0
  missCount : d'.missCount = 0
  f : d'.f = d.f
  s : d'.s = 0
  lastE : d'.lastE = if d.edgeNow rt then d.lastEBefore else d.lastE
  lastEBefore : d'.lastEBefore = d.lastEBefore
  unlockSeen : d'.unlockSeen = d.unlockSeen
  enabled : c.enabled = true → d'.refPoint = rt ∧ d'.firstEdge = true

theorem Discipline.reconfigured_spec (rt : Nat) (c : RefConfig) (d : Discipline) :
    d.Reconfigured rt c (d.reconfigured rt c) := by
  unfold reconfigured
  dsimp only
  by_cases henabled : c.enabled = true
  · rw [if_pos henabled]
    exact ⟨rfl, rfl, rfl, rfl, rfl, rfl, rfl, rfl, rfl, rfl, rfl, fun _ => ⟨rfl, rfl⟩⟩
  · rw [if_neg henabled]
    exact ⟨rfl, rfl, rfl, rfl, rfl, rfl, rfl, rfl, rfl, rfl, rfl, fun h => absurd h henabled⟩

theorem RefConfig.firstState_untrimmed (c : RefConfig) : Untrimmed c.firstState := by
  unfold firstState
  split <;> decide

end Sys2Proof.Machine
end

section
/-! SUPPORT. The ranges of the discipline unit's values, which every command keeps (R22, R23, R31, R35). -/

namespace Sys2Proof.Machine

open Sys2Proof.Safety

/-! ## The ranges of the unit -/

/-- The ranges of `Safety.DisciplineTied` that speak of the discipline unit alone. -/
structure Discipline.InRange (d : Discipline) : Prop where
  f : -200000 ≤ d.f ∧ d.f ≤ 200000
  s : -50000 ≤ d.s ∧ d.s ≤ 50000
  untrimmed : Untrimmed d.state → d.s = 0 ∧ d.window = []
  acquire : d.state = .acquire → d.window.length ≤ 3
  window : d.window.length ≤ 15
  pairCount : d.pairCount ≤ 1
  trimmed : ¬Untrimmed d.state → d.pairCount = 0
  missCount : d.missCount ≤ 255
  tref : 1000 ≤ d.cfg.trefUs ∧ d.cfg.trefUs ≤ 1000000
  lastE : -500000000 ≤ d.lastE ∧ d.lastE ≤ 500000000
  lastEBefore : -500000000 ≤ d.lastEBefore ∧ d.lastEBefore ≤ 500000000

theorem disciplineTied_iff {s : State} :
    DisciplineTied s ↔ s.disc.InRange ∧ (s.load ≠ none → s.disc.state = .freerun) := by
  constructor
  · rintro ⟨hf, hs, huntrimmed, hacquire, hwindow, hpair, htrimmed, hmiss, htref, hlast, hbefore, hload⟩
    exact ⟨⟨hf, hs, huntrimmed, hacquire, hwindow, hpair, htrimmed, hmiss, htref, hlast, hbefore⟩, hload⟩
  · rintro ⟨⟨hf, hs, huntrimmed, hacquire, hwindow, hpair, htrimmed, hmiss, htref, hlast, hbefore⟩, hload⟩
    exact ⟨hf, hs, huntrimmed, hacquire, hwindow, hpair, htrimmed, hmiss, htref, hlast, hbefore, hload⟩

theorem clamp_range {lo hi : Int} (h : lo ≤ hi) (v : Int) : lo ≤ clamp v lo hi ∧ clamp v lo hi ≤ hi :=
  ⟨le_max_left _ _, max_le h (min_le_right _ _)⟩

/-- A window end in ACQUIRE, TRACK or LOCKED to a state with a window; `slew` is S after it. -/
theorem Discipline.InRange.windowEnd {d : Discipline} (h : d.InRange) (hstate : ¬Untrimmed d.state) (w : List Int) (n m : Nat)
    {new : DiscState} (hnew : ¬Untrimmed new) {slew : Int} (hslew : -50000 ≤ slew ∧ slew ≤ 50000) :
    ({ d.endWindow w n m with s := slew, state := new } : Discipline).InRange where
  f := clamp_range (by decide) _
  s := hslew
  untrimmed hu := absurd hu hnew
  acquire _ := Nat.zero_le _
  window := Nat.zero_le _
  pairCount := h.pairCount
  trimmed _ := h.trimmed hstate
  missCount := h.missCount
  tref := h.tref
  lastE := h.lastE
  lastEBefore := h.lastEBefore


theorem Discipline.InRange.countPair {d : Discipline} (h : d.InRange) (hstate : Untrimmed d.state) (new : DiscState) :
    (d.countPair new).InRange := by
  obtain ⟨hs, hwindow⟩ := h.untrimmed hstate
  unfold Discipline.countPair
  split
  · exact { h with pairCount := le_refl 1, trimmed := fun ht => absurd hstate ht }
  · exact { h with
      untrimmed := fun _ => ⟨hs, rfl⟩
      acquire := fun _ => Nat.zero_le _
      window := Nat.zero_le _
      pairCount := Nat.zero_le _
      trimmed := fun _ => rfl }

/-- A phase error put into a window that stays shorter than its length. -/
theorem Discipline.InRange.fill {d : Discipline} (h : d.InRange) (hstate : ¬Untrimmed d.state) {e : Int}
    (hacquire : d.state = .acquire → d.window.length < 3) (hwindow : d.window.length < 15) :
    ({ d with window := d.window ++ [e] } : Discipline).InRange :=
  { h with
    untrimmed := fun hu => absurd hu hstate
    acquire := fun ha => by simpa using hacquire ha
    window := by simpa using hwindow }

/-- A window emptied on the way to a state with a window. -/
theorem Discipline.InRange.emptied {d : Discipline} (h : d.InRange) (hstate : ¬Untrimmed d.state) {new : DiscState}
    (hnew : ¬Untrimmed new) (seen : Tab 4 Bool) :
    ({ d with state := new, window := [], unlockSeen := seen } : Discipline).InRange :=
  { h with
    untrimmed := fun hu => absurd hu hnew
    acquire := fun _ => Nat.zero_le _
    window := Nat.zero_le _
    trimmed := fun _ => h.trimmed hstate }

theorem Discipline.InRange.endWindowBy {d : Discipline} (h : d.InRange) (hstate : ¬Untrimmed d.state) (e : Int) (n m bound : Nat)
    {new : DiscState} (hnew : ¬Untrimmed new) : (d.endWindowBy e n m bound new).InRange := by
  have hnext : ¬Untrimmed (if ∀ x ∈ d.window ++ [e], x.natAbs ≤ bound then new else d.state) := by
    split
    · exact hnew
    · exact hstate
  exact h.windowEnd hstate _ n m hnext (clamp_range (by decide) _)

theorem Discipline.InRange.intoAcquire {d : Discipline} (h : d.InRange) (hstate : d.state = .acquire) (e : Int) :
    (d.intoAcquire e).InRange := by
  have htrim : ¬Untrimmed d.state := by rw [hstate]; decide
  unfold Discipline.intoAcquire
  split
  · next hlt => exact h.fill htrim (fun _ => hlt) (by omega)
  · split
    · exact h.windowEnd htrim _ 3 8 htrim (by decide)
    · exact h.endWindowBy htrim e 3 8 _ (by decide)

theorem Discipline.InRange.intoLong {d : Discipline} (h : d.InRange) (hstate : d.state = .track ∨ d.state = .locked) (e : Int) :
    (d.intoLong e).InRange := by
  have htrim : ¬Untrimmed d.state := by rcases hstate with h | h <;> rw [h] <;> decide
  have hacquire : d.state ≠ .acquire := by rcases hstate with h | h <;> rw [h] <;> decide
  unfold Discipline.intoLong
  split
  · next hlt => exact h.fill htrim (fun ha => absurd ha hacquire) hlt
  · exact h.endWindowBy htrim e 15 64 _ (by decide)

/-- The handling of an accepted edge keeps the ranges (R22 to R27). -/
theorem Discipline.InRange.afterEdge {d : Discipline} (h : d.InRange) (e : Int) : (d.afterEdge e).InRange := by
  unfold Discipline.afterEdge
  cases hstate : d.state with
  | freerun => exact h
  | search => exact h.countPair (by rw [hstate]; decide) _
  | holdover => exact h.countPair (by rw [hstate]; decide) _
  | acquire => exact h.intoAcquire hstate e
  | track =>
    dsimp only
    split
    · exact h.emptied (by rw [hstate]; decide) (by decide) _
    · exact h.intoLong (.inl hstate) e
  | locked =>
    dsimp only
    split
    · exact h.emptied (by rw [hstate]; decide) (by decide) _
    · exact h.intoLong (.inr hstate) e

theorem acceptEdge_inRange {s : State} (h : s.disc.InRange) : (acceptEdge s).disc.InRange :=
  { h with
    missCount := Nat.zero_le _
    lastE := RefConfig.phaseError_range h.tref _
    lastEBefore := h.lastE }

/-- A miss empties the window and the pair count (R20). -/
theorem countMiss_inRange {s : State} (h : s.disc.InRange) : (countMiss s).disc.InRange :=
  { h with
    untrimmed := fun hu => ⟨(h.untrimmed hu).1, rfl⟩
    acquire := fun _ => Nat.zero_le _
    window := Nat.zero_le _
    pairCount := Nat.zero_le _
    trimmed := fun _ => rfl
    missCount := min_le_left _ _ }

/-- Where no window runs, S = 0 and the empty window leave few ranges to ask for. -/
theorem Discipline.InRange.of_untrimmed {d : Discipline} (hstate : Untrimmed d.state) (hs : d.s = 0) (hwindow : d.window = [])
    (hf : -200000 ≤ d.f ∧ d.f ≤ 200000) (hpair : d.pairCount ≤ 1) (hmiss : d.missCount ≤ 255)
    (htref : 1000 ≤ d.cfg.trefUs ∧ d.cfg.trefUs ≤ 1000000) (hlast : -500000000 ≤ d.lastE ∧ d.lastE ≤ 500000000)
    (hbefore : -500000000 ≤ d.lastEBefore ∧ d.lastEBefore ≤ 500000000) : d.InRange where
  f := hf
  s := by rw [hs]; decide
  untrimmed _ := ⟨hs, hwindow⟩
  acquire _ := by simp [hwindow]
  window := by simp [hwindow]
  pairCount := hpair
  trimmed ht := absurd hstate ht
  missCount := hmiss
  tref := htref
  lastE := hlast
  lastEBefore := hbefore

/-- A reference loss with its window emptied (R21). -/
theorem referenceLoss_inRange {s : State} (h : s.disc.InRange) (hwindow : s.disc.window = []) :
    (referenceLoss s).disc.InRange := by
  rw [referenceLoss_disc]
  exact .of_untrimmed s.disc.state.afterLoss_untrimmed rfl hwindow h.f h.pairCount h.missCount h.tref h.lastE h.lastEBefore

theorem refConfigured_inRange {s : State} (h : s.disc.InRange) {c : RefConfig} (hc : 1000 ≤ c.trefUs ∧ c.trefUs ≤ 1000000) :
    (refConfigured c s).disc.InRange := by
  have hspec := s.disc.reconfigured_spec s.time.rt c
  rw [refConfigured_eq, enterState_disc]
  refine .of_untrimmed c.firstState_untrimmed hspec.s hspec.window ?f ?pair ?miss ?tref ?last ?before
  case f => exact hspec.f.symm ▸ h.f
  case pair => exact hspec.pairCount.trans_le (Nat.zero_le 1)
  case miss => exact hspec.missCount.trans_le (Nat.zero_le 255)
  case tref => exact hspec.cfg.symm ▸ hc
  case last =>
    dsimp only
    rw [hspec.lastE]
    split
    · exact h.lastEBefore
    · exact h.lastE
  case before => exact hspec.lastEBefore.symm ▸ h.lastEBefore

theorem Discipline.InRange.load {d : Discipline} (h : d.InRange) (hstate : d.state = .freerun) {c : RefConfig}
    (hc : 1000 ≤ c.trefUs ∧ c.trefUs ≤ 1000000) (rt : Nat) (q : Profile) : (d.load rt c q).InRange := by
  obtain ⟨hs, hwindow⟩ := h.untrimmed (.inl hstate)
  unfold Discipline.load
  dsimp only
  split
  · exact .of_untrimmed (.inr (.inl rfl)) hs hwindow h.f h.pairCount h.missCount hc h.lastE h.lastEBefore
  · exact .of_untrimmed (.inl hstate) hs hwindow h.f h.pairCount h.missCount hc h.lastE h.lastEBefore

theorem Discipline.InRange.hubReset {d : Discipline} (h : d.InRange) : d.hubReset.InRange :=
  have hzero : -500000000 ≤ (0 : Int) ∧ (0 : Int) ≤ 500000000 := by decide
  .of_untrimmed (.inl rfl) rfl rfl h.f (Nat.zero_le _) (Nat.zero_le _) h.tref hzero hzero

theorem Discipline.reset_inRange : Discipline.reset.InRange :=
  .of_untrimmed (.inl rfl) rfl rfl (by decide) (by decide) (by decide) (by decide) (by decide) (by decide)

/-! ## The commands that leave the unit's ranges alone -/

/-- From `s` to `t` the awaited load stays, and of the discipline unit all but the profile and the unlock-seen flags. -/
structure SameCourse (s t : State) : Prop where
  load : t.load = s.load
  disc : ∃ profile seen, t.disc = { s.disc with profile := profile, unlockSeen := seen }

theorem SameCourse.of_disc {s t : State} (hload : t.load = s.load) (hdisc : t.disc = s.disc) : SameCourse s t :=
  ⟨hload, _, _, hdisc⟩

theorem SameCourse.of_eq {s t : State} (h : t = s) : SameCourse s t := .of_disc (by rw [h]) (by rw [h])

theorem SameCourse.refl (s : State) : SameCourse s s := .of_eq rfl

theorem SameCourse.of_fireOnly {s t : State} (h : FireOnly s t) : SameCourse s t := .of_disc h.load h.disc

theorem SameCourse.of_logOnly {s t : State} (h : LogOnly s t) : SameCourse s t := .of_disc h.load h.disc

theorem SameCourse.trans {s t u : State} (h : SameCourse s t) (k : SameCourse t u) : SameCourse s u := by
  obtain ⟨hload, profile, seen, hdisc⟩ := h
  obtain ⟨kload, profile', seen', kdisc⟩ := k
  exact ⟨kload.trans hload, profile', seen', by rw [kdisc, hdisc]⟩

theorem SameCourse.after {s t u : State} (k : SameCourse t u) (h : SameCourse s t) : SameCourse s u := h.trans k

theorem SameCourse.tied {s t : State} (h : SameCourse s t) (hs : DisciplineTied s) : DisciplineTied t := by
  obtain ⟨hload, profile, seen, hdisc⟩ := h
  unfold DisciplineTied
  rw [hload, hdisc]
  exact hs

/-! Events. -/

theorem expiry_sameCourse (s : State) : SameCourse s (expiry s) := by
  unfold expiry
  split
  · exact .of_fireOnly (takeDue_fireOnly _ _)
  · exact .refl s

theorem enterHeld_sameCourse (s : State) : SameCourse s (enterHeld s) := by
  unfold enterHeld
  split <;> exact .of_disc rfl rfl

theorem takeHoldNotice_sameCourse (s : State) : SameCourse s (takeHoldNotice s) := by
  unfold takeHoldNotice
  split
  · exact (enterHeld_sameCourse _).after (.of_disc rfl rfl)
  · exact .refl s

theorem handOn_sameCourse (pin : Pin) (ed : Edge) (ht : Nat) (epoch : BitVec 16) (locked late : Bool) (w : Watch) (s : State) :
    SameCourse s (handOn pin ed ht epoch locked late (setWatch pin w s)) :=
  (SameCourse.of_fireOnly (handOn_fireOnly _ _ _ _ _ _ _)).after (.of_disc rfl rfl)

theorem transition_sameCourse (pin : Pin) (level : Level) (s : State) : SameCourse s (transition pin level s) := by
  unfold transition
  repeat' split
  · exact .refl s
  · exact .of_disc rfl rfl
  · exact handOn_sameCourse _ _ _ _ _ _ _ s
  · exact .of_disc rfl rfl
  · exact .refl s

theorem debounceWindowEnd_sameCourse (pin : Pin) (level : Level) (s : State) :
    SameCourse s (debounceWindowEnd pin level s) := by
  unfold debounceWindowEnd
  dsimp only
  repeat' split
  · exact .refl s
  · exact .of_disc rfl rfl
  · exact handOn_sameCourse _ _ _ _ _ _ _ s

theorem contentionCheck_sameCourse (pin : Pin) (level : Level) (s : State) : SameCourse s (contentionCheck pin level s) := by
  unfold contentionCheck
  dsimp only
  repeat' split
  · exact .of_disc rfl rfl
  · exact .of_disc rfl rfl
  · exact (SameCourse.of_logOnly (occur_logOnly _ _ _ _)).after (.of_disc rfl rfl)
  · exact .refl s

theorem expireSettings_sameCourse (p : Port) (s : State) : SameCourse s (expireSettings p s) := by
  unfold expireSettings
  split
  · exact (SameCourse.of_logOnly (post_logOnly _ _ _)).after (.of_disc rfl rfl)
  · exact .refl s

theorem leaseExpiry_sameCourse (p : Port) (s : State) : SameCourse s (leaseExpiry p s) := by
  unfold leaseExpiry
  split
  · have hclaims := SameCourse.of_fireOnly (expireClaims_fireOnly p allPins s)
    have hsettings := hclaims.trans (expireSettings_sameCourse p _)
    have hoccur := hsettings.trans (.of_logOnly (occur_logOnly .leaseExpired (some p) .none _))
    dsimp only
    generalize occur .leaseExpired (some p) .none _ = u at hoccur ⊢
    exact hoccur.trans (.of_disc rfl rfl)
  · exact .refl s

theorem postStoreDone_sameCourse (requester : Option Port) (verified : Bool) (s : State) :
    SameCourse s (postStoreDone requester verified s) := by
  unfold postStoreDone
  split
  · exact .refl s
  · exact .of_logOnly ((post_logOnly _ _ _).trans (raiseClass_logOnly _ _ _))

theorem storeCompletion_sameCourse (verified : Bool) (s : State) : SameCourse s (storeCompletion verified s) := by
  have hpost : ∀ (requester : Option Port) (u : SettingsUnit),
      SameCourse s (postStoreDone requester verified { s with settings := u }) :=
    fun requester u => (postStoreDone_sameCourse requester verified _).after (.of_disc rfl rfl)
  unfold storeCompletion
  dsimp only
  repeat' split
  · exact .refl s
  · exact .refl s
  · exact hpost _ _
  · exact (hpost _ _).trans (.of_logOnly (occur_logOnly _ _ _ _))
  · exact .refl s

theorem portResetOf_sameCourse (p : Port) (s : State) : SameCourse s (portResetOf p s) := ⟨rfl, _, _, rfl⟩

theorem prstnFall_sameCourse (p : Port) (s : State) : SameCourse s (prstnFall p s) := by
  unfold prstnFall
  dsimp only
  repeat' split
  · exact .refl s
  · exact (portResetOf_sameCourse p _).after (.of_disc rfl rfl)
  · exact .of_disc rfl rfl

theorem prstnRise_sameCourse (p : Port) (begun : Bool) (s : State) : SameCourse s (prstnRise p begun s) := by
  unfold prstnRise
  split <;> exact .of_disc rfl rfl

theorem badFrame_sameCourse (p : Port) (bytes : List Byte) (trailing : Nat) (s : State) :
    SameCourse s (badFrame p bytes trailing s) := by
  unfold badFrame
  repeat' split
  · exact .of_disc rfl rfl
  · exact (SameCourse.of_logOnly (occur_logOnly _ _ _ _)).after (.of_disc rfl rfl)
  · exact .of_disc rfl rfl

theorem resultRead_sameCourse (p : Port) (s : State) : SameCourse s (resultRead p s) := by
  unfold resultRead
  split <;> exact .of_disc rfl rfl

theorem execAdvance_sameCourse {s t : State} (h : exec .advance s = .next t) : SameCourse s t := by
  cases h
  split <;> exact .of_disc rfl rfl

/-! Requests. -/

/-- A request frame keeps the course that its rule keeps. -/
theorem request_sameCourse {p : Port} {code : Byte} {s : State} {rule : State → Reply} (h : SameCourse s (rule s).state) :
    SameCourse s (request p code s rule) := by
  rcases request_cases p code s rule with ⟨e, -⟩ | ⟨e, -⟩ <;> rw [e]
  · exact .of_disc rfl rfl
  · exact h.trans (.of_disc rfl rfl)

theorem unknownRequest_sameCourse (p : Port) (code : Byte) (args : List Byte) (s : State) :
    SameCourse s (unknownRequest p code args s) := by
  unfold unknownRequest
  split
  · exact .refl s
  · exact request_sameCourse (.refl s)

theorem portReset_sameCourse {p : Port} {args : List Byte} {s t : State} (h : exec (.portReset p args) s = .next t) :
    SameCourse s t := by
  cases h
  repeat' split
  · exact request_sameCourse (.refl s)
  · exact portResetOf_sameCourse p s
  · exact .of_disc rfl rfl

theorem timeSet_sameCourse (p : Port) (args : List Byte) (s : State) : SameCourse s (timeSet p args s).state := by
  unfold timeSet
  dsimp only
  repeat' split
  · exact .refl s
  · exact .refl s
  · exact .refl s
  · exact .refl s
  · exact .refl s
  · exact .refl s
  · exact .of_disc (forwardStep_edgeOnly _ s).load (forwardStep_disc _ s)

theorem hold_sameCourse (p : Port) (args : List Byte) (s : State) : SameCourse s (hold p args s).state := by
  unfold hold
  repeat' split
  · exact .refl s
  · exact .refl s
  · exact enterHeld_sameCourse s

theorem resume_sameCourse (p : Port) (args : List Byte) (s : State) : SameCourse s (resume p args s).state := by
  unfold resume
  repeat' split
  · exact .refl s
  · exact .refl s
  · exact .refl s
  · next t n htake =>
    have hfire := takeDue_fireOnly true { s with sched := { s.sched with held := false } }
    rw [htake] at hfire
    exact (SameCourse.of_fireOnly hfire).after (.of_disc rfl rfl)
  · exact .refl s

theorem leaseSet_sameCourse (p : Port) (args : List Byte) (s : State) :
    SameCourse s (leaseSet p args s).state := by
  unfold leaseSet
  repeat' split
  all_goals exact ⟨rfl, _, _, rfl⟩

theorem leaseRenew_sameCourse (p : Port) (args : List Byte) (s : State) :
    SameCourse s (leaseRenew p args s).state := by
  unfold leaseRenew
  repeat' split
  all_goals exact ⟨rfl, _, _, rfl⟩

theorem disciplineProfile_sameCourse (p : Port) (args : List Byte) (s : State) :
    SameCourse s (disciplineProfile p args s).state := by
  unfold disciplineProfile
  dsimp only
  repeat' split
  all_goals exact ⟨rfl, _, _, rfl⟩

theorem disciplineStatus_sameCourse (p : Port) (args : List Byte) (s : State) :
    SameCourse s (disciplineStatus p args s).state := by
  unfold disciplineStatus
  repeat' split
  all_goals exact ⟨rfl, _, _, rfl⟩

theorem scheduleOnEdge_sameCourse (p : Port) (args : List Byte) (s : State) :
    SameCourse s (scheduleOnEdge p args s).state := by
  unfold scheduleOnEdge
  dsimp only
  repeat' split
  all_goals exact ⟨rfl, _, _, rfl⟩

theorem scheduleConfigure_sameCourse (p : Port) (args : List Byte) (s : State) :
    SameCourse s (scheduleConfigure p args s).state := by
  unfold scheduleConfigure
  dsimp only
  repeat' split
  all_goals exact ⟨rfl, _, _, rfl⟩

theorem pinConfigure_sameCourse (p : Port) (args : List Byte) (level : Level) (s : State) :
    SameCourse s (pinConfigure p args level s).state := by
  unfold pinConfigure
  repeat' split
  all_goals exact ⟨rfl, _, _, rfl⟩

theorem pinClaim_sameCourse (p : Port) (args : List Byte) (s : State) :
    SameCourse s (pinClaim p args s).state := by
  unfold pinClaim
  repeat' split
  all_goals exact ⟨rfl, _, _, rfl⟩

theorem pinWrite_sameCourse (p : Port) (args : List Byte) (s : State) :
    SameCourse s (pinWrite p args s).state := by
  unfold pinWrite
  repeat' split
  all_goals exact ⟨rfl, _, _, rfl⟩

theorem subscribe_sameCourse (p : Port) (args : List Byte) (s : State) :
    SameCourse s (subscribe p args s).state := by
  unfold subscribe
  repeat' split
  all_goals exact ⟨rfl, _, _, rfl⟩

theorem eventRead_sameCourse (p : Port) (args : List Byte) (s : State) :
    SameCourse s (eventRead p args s).state := by
  unfold eventRead
  dsimp only
  repeat' split
  all_goals exact ⟨rfl, _, _, rfl⟩

theorem ringConfigure_sameCourse (p : Port) (args : List Byte) (s : State) :
    SameCourse s (ringConfigure p args s).state := by
  unfold ringConfigure ok
  dsimp only
  repeat' split
  all_goals exact ⟨rfl, _, _, rfl⟩

theorem vectorConfigure_sameCourse (p : Port) (args : List Byte) (s : State) :
    SameCourse s (vectorConfigure p args s).state := by
  unfold vectorConfigure
  repeat' split
  all_goals exact ⟨rfl, _, _, rfl⟩

theorem vectorAck_sameCourse (p : Port) (args : List Byte) (s : State) :
    SameCourse s (vectorAck p args s).state := by
  unfold vectorAck
  dsimp only
  repeat' split
  all_goals exact ⟨rfl, _, _, rfl⟩

theorem notifyControl_sameCourse (p : Port) (args : List Byte) (s : State) :
    SameCourse s (notifyControl p args s).state := by
  unfold notifyControl
  repeat' split
  all_goals exact ⟨rfl, _, _, rfl⟩

theorem faultClear_sameCourse (p : Port) (args : List Byte) (s : State) :
    SameCourse s (faultClear p args s).state := by
  unfold faultClear
  repeat' split
  all_goals exact ⟨rfl, _, _, rfl⟩

theorem faultConfigure_sameCourse (p : Port) (args : List Byte) (s : State) :
    SameCourse s (faultConfigure p args s).state := by
  unfold faultConfigure
  repeat' split
  all_goals exact ⟨rfl, _, _, rfl⟩

theorem faultRecordClear_sameCourse (p : Port) (args : List Byte) (s : State) :
    SameCourse s (faultRecordClear p args s).state := by
  unfold faultRecordClear
  repeat' split
  all_goals exact ⟨rfl, _, _, rfl⟩

theorem settingsClaim_sameCourse (p : Port) (args : List Byte) (s : State) :
    SameCourse s (settingsClaim p args s).state := by
  unfold settingsClaim
  repeat' split
  all_goals exact ⟨rfl, _, _, rfl⟩

theorem settingsRelease_sameCourse (p : Port) (args : List Byte) (s : State) :
    SameCourse s (settingsRelease p args s).state := by
  unfold settingsRelease
  repeat' split
  all_goals exact ⟨rfl, _, _, rfl⟩

theorem portLimitsSet_sameCourse (p : Port) (args : List Byte) (s : State) :
    SameCourse s (portLimitsSet p args s).state := by
  unfold portLimitsSet
  dsimp only
  repeat' split
  all_goals exact ⟨rfl, _, _, rfl⟩

theorem writeStore_sameCourse (p : Port) (args : List Byte) (freeze : Bool) (s : State) :
    SameCourse s (writeStore p args freeze s).state := by
  unfold writeStore
  repeat' split
  all_goals exact ⟨rfl, _, _, rfl⟩

/-- The commands that move the discipline unit's ranged values or the awaited load. -/
def movesDiscipline : Instr → Bool
  | .powerOn => true
  | .powerLoss => true
  | .resetnFall => true
  | .hubReset _ _ => true
  | .settingsLoad _ => true
  | .activeEdge _ => true
  | .miss => true
  | .refConfigure _ _ => true
  | _ => false

theorem exec_sameCourse {c : Instr} {s t : State} (h : exec c s = .next t) (hc : movesDiscipline c = false) :
    SameCourse s t := by
  cases c with
  | powerOn => cases hc
  | resetnFall => cases hc
  | settingsLoad seen => cases hc
  | prstnFall p => cases h; exact prstnFall_sameCourse p s
  | advance => exact execAdvance_sameCourse h
  | expiry => cases h; exact expiry_sameCourse s
  | activeEdge change => cases hc
  | miss => cases hc
  | transition pin level => cases h; exact transition_sameCourse pin level s
  | debounceWindowEnd pin level => cases h; exact debounceWindowEnd_sameCourse pin level s
  | contentionCheck pin level => cases h; exact contentionCheck_sameCourse pin level s
  | leaseExpiry p => cases h; exact leaseExpiry_sameCourse p s
  | storeCompletion verified => cases h; exact storeCompletion_sameCourse verified s
  | holdNotice => cases h; exact takeHoldNotice_sameCourse s
  | badFrame p bytes trailing => cases h; exact badFrame_sameCourse p bytes trailing s
  | unknownRequest p code args => cases h; exact unknownRequest_sameCourse p code args s
  | resultRead p => cases h; exact resultRead_sameCourse p s
  | identify p args => cases h; exact request_sameCourse (.of_eq (identify_state p args s))
  | portStatus p args => cases h; exact request_sameCourse (.of_eq (portStatus_state p args s))
  | portReset p args => exact portReset_sameCourse h
  | leaseSet p args => cases h; exact request_sameCourse (leaseSet_sameCourse p args s)
  | leaseRenew p args => cases h; exact request_sameCourse (leaseRenew_sameCourse p args s)
  | timeRead p args => cases h; exact request_sameCourse (.of_eq (timeRead_state args s))
  | timeReadScaled p args => cases h; exact request_sameCourse (.of_eq (timeReadScaled_state args s))
  | timeSet p args => cases h; exact request_sameCourse (timeSet_sameCourse p args s)
  | refConfigure p args => cases hc
  | disciplineProfile p args => cases h; exact request_sameCourse (disciplineProfile_sameCourse p args s)
  | disciplineStatus p args => cases h; exact request_sameCourse (disciplineStatus_sameCourse p args s)
  | scheduleAt p args => cases h; exact request_sameCourse (.of_fireOnly (scheduleAt_fireOnly p args s))
  | scheduleOnEdge p args => cases h; exact request_sameCourse (scheduleOnEdge_sameCourse p args s)
  | cancel p args => cases h; exact request_sameCourse (.of_fireOnly (cancel_fireOnly p args s))
  | entryQuery p args => cases h; exact request_sameCourse (.of_eq (entryQuery_state p args s))
  | scheduleList p args => cases h; exact request_sameCourse (.of_eq (scheduleList_state p args s))
  | hold p args => cases h; exact request_sameCourse (hold_sameCourse p args s)
  | resume p args => cases h; exact request_sameCourse (resume_sameCourse p args s)
  | scheduleConfigure p args => cases h; exact request_sameCourse (scheduleConfigure_sameCourse p args s)
  | pinConfigure p args level => cases h; exact request_sameCourse (pinConfigure_sameCourse p args level s)
  | pinClaim p args => cases h; exact request_sameCourse (pinClaim_sameCourse p args s)
  | pinRelease p args => cases h; exact request_sameCourse (.of_fireOnly (pinRelease_fireOnly p args s))
  | pinWrite p args => cases h; exact request_sameCourse (pinWrite_sameCourse p args s)
  | pinRead p args => cases h; exact request_sameCourse (.of_eq (pinRead_state args s))
  | subscribe p args => cases h; exact request_sameCourse (subscribe_sameCourse p args s)
  | eventRead p args => cases h; exact request_sameCourse (eventRead_sameCourse p args s)
  | ringConfigure p args => cases h; exact request_sameCourse (ringConfigure_sameCourse p args s)
  | vectorConfigure p args => cases h; exact request_sameCourse (vectorConfigure_sameCourse p args s)
  | vectorAck p args => cases h; exact request_sameCourse (vectorAck_sameCourse p args s)
  | notifyControl p args => cases h; exact request_sameCourse (notifyControl_sameCourse p args s)
  | vectorRead p args => cases h; exact request_sameCourse (.of_eq (vectorRead_state p args s))
  | faultRead p args => cases h; exact request_sameCourse (.of_eq (faultRead_state args s))
  | faultClear p args => cases h; exact request_sameCourse (faultClear_sameCourse p args s)
  | faultConfigure p args => cases h; exact request_sameCourse (faultConfigure_sameCourse p args s)
  | faultRecordClear p args => cases h; exact request_sameCourse (faultRecordClear_sameCourse p args s)
  | settingsClaim p args => cases h; exact request_sameCourse (settingsClaim_sameCourse p args s)
  | settingsRelease p args => cases h; exact request_sameCourse (settingsRelease_sameCourse p args s)
  | portLimitsSet p args => cases h; exact request_sameCourse (portLimitsSet_sameCourse p args s)
  | settingsRead p args => cases h; exact request_sameCourse (.of_eq (settingsRead_state args s))
  | storeWrite p args => cases h; exact request_sameCourse (writeStore_sameCourse p args _ s)
  | storeFreeze p args => cases h; exact request_sameCourse (writeStore_sameCourse p args _ s)
  | hubReset p args => cases hc
  | prstnRise rise => cases h; exact prstnRise_sameCourse _ _ s
  | resetnRise => cases h; exact .of_disc rfl rfl
  | powerLoss => cases hc

/-! ## The commands that move them -/

theorem activeEdge_tied (change : Edge) {s : State} (h : DisciplineTied s) : DisciplineTied (activeEdge change s) := by
  obtain ⟨hranges, hload⟩ := disciplineTied_iff.1 h
  unfold activeEdge
  split
  · next htakes =>
    have hfree : s.disc.state ≠ .freerun := by
      simp only [State.takesEdge, Bool.and_eq_true, decide_eq_true_eq] at htakes
      obtain ⟨⟨-, hfree⟩, -⟩ := htakes
      exact hfree
    split
    · refine disciplineTied_iff.2 ⟨?_, fun hne => absurd (hload ?_) hfree⟩
      · rw [handleEdge_disc]
        exact (acceptEdge_inRange hranges).afterEdge _
      · rwa [(handleEdge_edgeOnly _).load] at hne
    · exact (SameCourse.of_logOnly (occur_logOnly _ _ _ s)).tied h
  · exact h

theorem referenceLoss_edgeOnly (s : State) : EdgeOnly s (referenceLoss s) :=
  (occur_logOnly _ _ _ s).fire.edge.trans (EdgeOnly.trans ⟨rfl⟩ (enterState_edgeOnly _ _))

theorem miss_tied {s : State} (h : DisciplineTied s) : DisciplineTied (miss s) := by
  obtain ⟨hranges, hload⟩ := disciplineTied_iff.1 h
  unfold miss
  split
  · next hdue =>
    have hfree : s.disc.state ≠ .freerun := by
      simp only [State.missDue, Bool.and_eq_true, decide_eq_true_eq] at hdue
      obtain ⟨⟨-, hfree⟩, -⟩ := hdue
      exact hfree
    dsimp only
    split
    · refine disciplineTied_iff.2 ⟨referenceLoss_inRange (countMiss_inRange hranges) rfl, fun hne => absurd (hload ?_) hfree⟩
      rwa [(referenceLoss_edgeOnly _).load] at hne
    · exact disciplineTied_iff.2 ⟨countMiss_inRange hranges, hload⟩
  · exact h

theorem boolOfCode_eq_some {n : Nat} {b : Bool} (h : boolOfCode n = some b) : n < 2 := by
  unfold boolOfCode at h
  split at h
  · decide
  · decide
  · cases h

theorem edgeOfCode_eq_some {n : Nat} {ed : Edge} (h : edgeOfCode n = some ed) : n < 2 := by
  unfold edgeOfCode at h
  split at h
  · decide
  · decide
  · cases h

/-- The fields that a REF CONFIGURE takes, in their ranges (R31). -/
theorem readRefConfig_eq_some {args : List Byte} {c : RefConfig} (h : readRefConfig args = some c) :
    c.trefUs = fld args 1 4 ∧ (1000 ≤ fld args 1 4 ∧ fld args 1 4 ≤ 1000000) ∧
      fld args 0 1 < 2 ∧ fld args 5 1 < 2 ∧ fld args 6 1 < 2 := by
  simp only [readRefConfig, Option.bind_eq_bind, Option.bind_eq_some_iff] at h
  obtain ⟨enabled, henabled, ed, hed, stepEnable, hstep, h⟩ := h
  split at h
  · next hrange =>
    cases h
    exact ⟨rfl, hrange, boolOfCode_eq_some henabled, edgeOfCode_eq_some hed, boolOfCode_eq_some hstep⟩
  · cases h

theorem refConfigured_tied {c : RefConfig} (hc : 1000 ≤ c.trefUs ∧ c.trefUs ≤ 1000000) {s : State} (h : DisciplineTied s)
    (hload : s.load = none) : DisciplineTied (refConfigured c s) := by
  obtain ⟨hranges, -⟩ := disciplineTied_iff.1 h
  refine disciplineTied_iff.2 ⟨?_, fun hne => absurd ?_ hne⟩
  · exact refConfigured_inRange hranges hc
  · exact (enterState_edgeOnly _ _).load.trans hload

theorem load_none_of_takesFrames {p : Port} {s : State} (h : s.takesFrames p = true) : s.load = none := by
  simp only [State.takesFrames, Bool.and_eq_true, Option.isNone_iff_eq_none] at h
  obtain ⟨⟨⟨⟨-, hload⟩, -⟩, -⟩, -⟩ := h
  exact hload

theorem refConfigure_tied (p : Port) (args : List Byte) {s : State} (h : DisciplineTied s) (hload : s.load = none) :
    DisciplineTied (refConfigure p args s).state := by
  unfold refConfigure
  repeat' split
  · exact h
  · exact h
  · exact h
  · next hread =>
    obtain ⟨htref, hrange, -⟩ := readRefConfig_eq_some hread
    exact refConfigured_tied (htref.symm ▸ hrange) h hload

theorem execRefConfigure_tied {p : Port} {args : List Byte} {s t : State} (h : exec (.refConfigure p args) s = .next t)
    (hs : DisciplineTied s) : DisciplineTied t := by
  cases h
  rcases request_cases p 0x18#8 s (refConfigure p args) with ⟨e, -⟩ | ⟨e, htakes⟩ <;> rw [e]
  · exact hs
  · exact refConfigure_tied p args hs (load_none_of_takesFrames htakes)

/-- The settings of a valid image have Tref in its range (R175). -/
theorem readImage_tref {bs : List Byte} {w : Settings} (h : readImage bs = some w) :
    1000 ≤ w.ref.trefUs ∧ w.ref.trefUs ≤ 1000000 := by
  unfold readImage at h
  dsimp only at h
  repeat' split at h
  · cases h
  · next hrange =>
    cases h
    simp only [Settings.inRange, Bool.and_eq_true, decide_eq_true_eq] at hrange
    obtain ⟨⟨⟨⟨-, hlo⟩, hhi⟩, -⟩, -⟩ := hrange
    exact ⟨hlo, hhi⟩
  · cases h
  · cases h

theorem storeImage_tref {image : StoreImage} {w : Settings} (h : image.settings = some w) :
    1000 ≤ w.ref.trefUs ∧ w.ref.trefUs ≤ 1000000 := by
  cases image with
  | bytes bs => exact readImage_tref h
  | spoiled => cases h

theorem putSettings_tied (kind : LoadKind) {w : Settings} (hw : 1000 ≤ w.ref.trefUs ∧ w.ref.trefUs ≤ 1000000) (valid : Bool)
    (levels : BitVec 24) (begun : BitVec 4) {s : State} (h : DisciplineTied s) (hload : s.load ≠ none) :
    DisciplineTied (putSettings kind w valid levels begun s) := by
  obtain ⟨hranges, hfree⟩ := disciplineTied_iff.1 h
  exact disciplineTied_iff.2 ⟨hranges.load (hfree hload) hw _ _, fun hne => absurd rfl hne⟩

theorem settingsLoad_tied (levels : BitVec 24) (begun : BitVec 4) {s : State} (h : DisciplineTied s) :
    DisciplineTied (settingsLoad levels begun s) := by
  unfold settingsLoad
  split
  · exact h
  · next kind hkind =>
    have hload : s.load ≠ none := by rw [hkind]; exact Option.some_ne_none kind
    repeat' split
    · next w hw => exact putSettings_tied kind (storeImage_tref hw) true levels begun h hload
    · have hput := putSettings_tied kind (w := .builtin) (by decide) false levels begun h hload
      exact (SameCourse.of_logOnly (occur_logOnly _ _ _ _)).tied hput
    · exact h

theorem hubResetAll_tied (byRequest : Bool) {s : State} (h : DisciplineTied s) : DisciplineTied (hubResetAll byRequest s) := by
  obtain ⟨hranges, -⟩ := disciplineTied_iff.1 h
  exact disciplineTied_iff.2 ⟨hranges.hubReset, fun _ => rfl⟩

theorem execHubReset_tied {p : Port} {args : List Byte} {s t : State} (h : exec (.hubReset p args) s = .next t)
    (hs : DisciplineTied s) : DisciplineTied t := by
  cases h
  repeat' split
  · exact (request_sameCourse (.refl s)).tied hs
  · exact hubResetAll_tied true hs
  · exact hs

theorem resetnFall_tied {s : State} (h : DisciplineTied s) : DisciplineTied (resetnFall s) := by
  unfold resetnFall
  dsimp only
  repeat' split
  · exact h
  · exact hubResetAll_tied false h
  · exact h

theorem powerOnValues_tied (s : State) : DisciplineTied (powerOnValues s) :=
  disciplineTied_iff.2 ⟨Discipline.reset_inRange, fun _ => rfl⟩

theorem powerLoss_tied {s : State} (h : DisciplineTied s) : DisciplineTied (powerLoss s) := by
  unfold powerLoss
  split
  · exact powerOnValues_tied s
  · exact h

/-- Every command keeps the ranges of the discipline unit. -/
theorem exec_keeps_disciplineTied {c : Instr} {s t : State} (h : exec c s = .next t) (hs : DisciplineTied s) :
    DisciplineTied t := by
  cases hc : movesDiscipline c with
  | false => exact (exec_sameCourse h hc).tied hs
  | true =>
    unfold movesDiscipline at hc
    split at hc
    · cases h; exact powerOnValues_tied s
    · cases h; exact powerLoss_tied hs
    · cases h; exact resetnFall_tied hs
    · exact execHubReset_tied h hs
    · cases h; exact settingsLoad_tied _ _ hs
    · cases h; exact activeEdge_tied _ hs
    · cases h; exact miss_tied hs
    · exact execRefConfigure_tied h hs
    · cases hc

/-- Settles O23: `exec_keeps_disciplineTied` for the command at the front of the queue. -/
theorem everyStepKeepsTheDisciplineRanges : Obligations.EveryStepKeepsTheDisciplineRanges := by
  intro s t hs hstep
  unfold step at hstep
  split at hstep
  · cases hstep
    exact hs
  · exact exec_keeps_disciplineTied hstep hs

end Sys2Proof.Machine
end

section
/-! SUPPORT. What an accepted edge and a runt do (R16 to R20), and the trims at a window end (R24 to R27). -/

namespace Sys2Proof.Machine

open Sys2Proof.Safety

/-! ## ACTIVE_EDGE -/

theorem exec_activeEdge (change : Edge) (s : State) : exec (.activeEdge change) s = .next (activeEdge change s) := rfl

theorem takesEdge_of_edge {change : Edge} {s : State} (hpowered : s.powered = true) (hfree : s.disc.state ≠ .freerun)
    (hedge : s.disc.cfg.edge = change) : s.takesEdge change = true := by
  simp [State.takesEdge, hpowered, hfree, hedge]

theorem edgeAccepted_iff {s : State} :
    s.edgeAccepted = true ↔ s.disc.firstEdge = true ∨ s.disc.cfg.trefNs / 2 ≤ s.time.rt - s.disc.refPoint := by
  simp [State.edgeAccepted]

/-- An edge that R17 accepts is handled by the present state. -/
theorem activeEdge_accepted {change : Edge} {s : State} (htakes : s.takesEdge change = true)
    (haccepted : s.disc.firstEdge = true ∨ s.disc.cfg.trefNs / 2 ≤ s.time.rt - s.disc.refPoint) :
    activeEdge change s = handleEdge (acceptEdge s) := by
  rw [activeEdge, if_pos htakes, if_pos (edgeAccepted_iff.2 haccepted)]

/-- An earlier edge is a runt (R18). -/
theorem activeEdge_runt {change : Edge} {s : State} (htakes : s.takesEdge change = true) (hfirst : s.disc.firstEdge = false)
    (hearly : s.time.rt - s.disc.refPoint < s.disc.cfg.trefNs / 2) :
    activeEdge change s = occur .refRunt none (.interval (s.time.rt - s.disc.refPoint)) s := by
  have hnot : ¬s.edgeAccepted = true := by
    rw [edgeAccepted_iff, hfirst]
    simpa using hearly
  rw [activeEdge, if_pos htakes, if_neg hnot]

theorem activeEdge_untaken {change : Edge} {s : State} (h : s.disc.state = .freerun ∨ s.disc.cfg.edge ≠ change) :
    activeEdge change s = s := by
  have hnot : ¬s.takesEdge change = true := by
    simp only [State.takesEdge, Bool.and_eq_true, decide_eq_true_eq]
    tauto
  rw [activeEdge, if_neg hnot]

/-- Settles O17: the three branches of ACTIVE_EDGE; the handling of an accepted edge keeps what its acceptance set. -/
theorem activeEdgeIsAcceptedOrARunt : Obligations.ActiveEdgeIsAcceptedOrARunt := by
  intro change s hpowered
  refine ⟨fun hfree hedge haccepted => ?accepted, fun hfree hedge hfirst hearly => ?runt, fun h => ?untaken⟩
  case accepted =>
    refine ⟨_, exec_activeEdge change s, activeEdge_edgeOnly change s, ?_⟩
    have hkept := Discipline.afterEdge_kept (acceptEdge s).disc.lastE (acceptEdge s).disc
    rw [activeEdge_accepted (takesEdge_of_edge hpowered hfree hedge) haccepted, handleEdge_disc]
    exact ⟨hkept.refPoint, hkept.firstEdge, hkept.missCount, hkept.lastE, hkept.nextMiss, hkept.cfg, hkept.profile⟩
  case runt =>
    refine ⟨_, exec_activeEdge change s, activeEdge_runt (takesEdge_of_edge hpowered hfree hedge) hfirst hearly, ?_⟩
    rw [activeEdge_runt (takesEdge_of_edge hpowered hfree hedge) hfirst hearly]
    exact ⟨occur_logOnly _ _ _ s, by rw [occur_count (by decide), if_pos rfl]⟩
  case untaken => rw [exec_activeEdge, activeEdge_untaken h]

/-! ## Window ends -/

/-- F after a window of `n` intervals from the phase error `e1` to `e` (R24, R26). -/
theorem endWindow_f (e1 e : Int) (rest : List Int) (n m : Nat) (d : Discipline) :
    (d.endWindow (e1 :: rest ++ [e]) n m).f = max (-200000) (min 200000
      (d.f - (Int.tdiv ((e - e1) * 1000000000) (n * d.cfg.trefNs) - d.s))) := by
  have hlast : (e1 :: rest ++ [e]).getLastD 0 = e := List.getLastD_concat
  rw [Discipline.endWindow, hlast, clamp, freqCorrection, min_comm]
  rfl

/-- S after a window whose last phase error is `e`, spread over `m` intervals (R24, R26). -/
theorem endWindow_s (w : List Int) (e : Int) (n m : Nat) (d : Discipline) :
    (d.endWindow (w ++ [e]) n m).s = max (-50000) (min 50000 (Int.tdiv (-e * 1000000000) (m * d.cfg.trefNs))) := by
  simp [Discipline.endWindow, clamp, slewTrim, min_comm]

/-- The fourth phase error in ACQUIRE: without a step the trims of the window, with one S = 0 (R24, R25). -/
theorem intoAcquire_ends (e : Int) {d : Discipline} (h : d.window.length = 3) :
    (d.intoAcquire e).window = [] ∧ (d.intoAcquire e).f = (d.endWindow (d.window ++ [e]) 3 8).f ∧
      (d.intoAcquire e).s = if d.StepsAt e then 0 else (d.endWindow (d.window ++ [e]) 3 8).s := by
  unfold Discipline.intoAcquire
  rw [if_neg (by omega)]
  split
  · exact ⟨rfl, rfl, rfl⟩
  · exact ⟨rfl, rfl, rfl⟩

/-- The sixteenth phase error in TRACK or LOCKED (R26, R27). -/
theorem intoLong_ends (e : Int) {d : Discipline} (h : d.window.length = 15) :
    d.intoLong e = d.endWindowBy e 15 64 d.profile.lockIn .locked := by
  rw [Discipline.intoLong, if_neg (by omega)]

/-! ## Hub time at an accepted edge -/

theorem forwardStep_time (d : Nat) (s : State) : (forwardStep d s).time = s.time.step d := stepNotices_time _ _

/-- R8, with the saturation of R1. -/
theorem TimeCounter.step_ht (d : Nat) (t : TimeCounter) : (t.step d).ht = min (t.ht + d) (2 ^ 64 - 1) := by
  have hmax := maxTime_eq
  unfold TimeCounter.step
  split <;> dsimp only <;> omega

theorem TimeCounter.step_epoch (d : Nat) (t : TimeCounter) : (t.step d).epoch = t.epoch + 1 := by
  unfold TimeCounter.step
  split <;> rfl

theorem forwardStep_count (d : Nat) (s : State) :
    countOf (forwardStep d s) .timeStep = bumped (countOf s .timeStep) := by
  obtain ⟨draws, horders⟩ := stepNotices_orders ((s.time.step d).ht - s.time.ht) { s with time := s.time.step d }
  exact horders.count

/-- The step of ACQUIRE is by the last phase error of the window (R25). -/
theorem edgeInAcquire_of_step {e : Int} {s : State} (hlen : s.disc.window.length = 3) (hstep : s.disc.StepsAt e) :
    edgeInAcquire e s =
      forwardStep (-e).toNat { s with disc := { s.disc.endWindow (s.disc.window ++ [e]) 3 8 with s := 0 } } := by
  simp [edgeInAcquire, hlen, hstep.1, hstep.2]

theorem edgeInAcquire_time_of_not_step {e : Int} {s : State} (hstep : ¬s.disc.StepsAt e) :
    (edgeInAcquire e s).time = s.time := by
  unfold edgeInAcquire
  simp only [if_neg hstep]
  split
  · rfl
  · split
    · exact enterState_time _ _
    · rfl

theorem handleEdge_of_acquire {s : State} (h : s.disc.state = .acquire) : handleEdge s = edgeInAcquire s.disc.lastE s := by
  simp [handleEdge, h]

theorem handleEdge_time_of_not_acquire {s : State} (h : s.disc.state ≠ .acquire) : (handleEdge s).time = s.time := by
  unfold handleEdge
  split
  · rfl
  · exact edgeInSearch_time s
  · next hacquire => exact absurd hacquire h
  · exact edgeInTrack_time _ s
  · exact edgeInLocked_time _ s
  · exact edgeInHoldover_time _ s

/-- In TRACK and LOCKED a phase error within ACQ_IN or LOCK_OUT goes into the window (R26, R27). -/
theorem afterEdge_of_long {e : Int} {d : Discipline}
    (h : d.state = .track ∧ e.natAbs ≤ d.profile.acqIn ∨ d.state = .locked ∧ e.natAbs ≤ d.profile.lockOut) :
    d.afterEdge e = d.intoLong e := by
  unfold Discipline.afterEdge
  rcases h with ⟨hstate, hin⟩ | ⟨hstate, hin⟩ <;> rw [hstate] <;> exact if_neg (Nat.not_lt.2 hin)

/-- The fourth phase error of an ACQUIRE window (R24, R25). -/
theorem edgeInAcquire_ends (e : Int) {e1 : Int} {rest : List Int} {s : State} (hwindow : s.disc.window = e1 :: rest)
    (hrest : rest.length = 2) :
    (edgeInAcquire e s).disc.window = [] ∧
      (edgeInAcquire e s).disc.f = max (-200000) (min 200000
        (s.disc.f - (Int.tdiv ((e - e1) * 1000000000) (3 * s.disc.cfg.trefNs) - s.disc.s))) ∧
      if s.disc.StepsAt e then
        (edgeInAcquire e s).disc.s = 0 ∧ (edgeInAcquire e s).time.epoch = s.time.epoch + 1 ∧
          (edgeInAcquire e s).time.ht = min (s.time.ht + (-e).toNat) (2 ^ 64 - 1) ∧
          countOf (edgeInAcquire e s) .timeStep = bumped (countOf s .timeStep)
      else
        (edgeInAcquire e s).disc.s = max (-50000) (min 50000 (Int.tdiv (-e * 1000000000) (8 * s.disc.cfg.trefNs))) ∧
          (edgeInAcquire e s).time = s.time := by
  have hlen : s.disc.window.length = 3 := by simp [hwindow, hrest]
  obtain ⟨hempty, hf, hs⟩ := intoAcquire_ends e hlen
  rw [edgeInAcquire_disc, hempty, hf, hs, hwindow, endWindow_f]
  refine ⟨rfl, rfl, ?_⟩
  split
  · next hstep =>
    rw [edgeInAcquire_of_step hlen hstep, forwardStep_time]
    exact ⟨rfl, TimeCounter.step_epoch _ _, TimeCounter.step_ht _ _, forwardStep_count _ _⟩
  · next hstep => exact ⟨endWindow_s _ _ _ _ _, edgeInAcquire_time_of_not_step hstep⟩

/-- The sixteenth phase error of a TRACK or LOCKED window (R26, R27). -/
theorem intoLong_trims (e : Int) {e1 : Int} {rest : List Int} {d : Discipline} (hwindow : d.window = e1 :: rest)
    (hrest : rest.length = 14) :
    (d.intoLong e).window = [] ∧
      (d.intoLong e).f = max (-200000) (min 200000
        (d.f - (Int.tdiv ((e - e1) * 1000000000) (15 * d.cfg.trefNs) - d.s))) ∧
      (d.intoLong e).s = max (-50000) (min 50000 (Int.tdiv (-e * 1000000000) (64 * d.cfg.trefNs))) := by
  have hf : (d.endWindowBy e 15 64 d.profile.lockIn .locked).f = (d.endWindow (d.window ++ [e]) 15 64).f := rfl
  have hs : (d.endWindowBy e 15 64 d.profile.lockIn .locked).s = (d.endWindow (d.window ++ [e]) 15 64).s := rfl
  rw [intoLong_ends e (by simp [hwindow, hrest]), hf, hs, endWindow_s, hwindow, endWindow_f]
  exact ⟨rfl, rfl, rfl⟩

/-- Settles O19: the ends of the two windows by `edgeInAcquire_ends` and `intoLong_trims`, in the state that the acceptance of the
edge leaves. -/
theorem windowEndSetsTheTrims : Obligations.WindowEndSetsTheTrims := by
  intro s e1 rest hpowered hwindow haccepted
  refine ⟨_, exec_activeEdge _ s, fun e he => ⟨fun hacquire hrest => ?acquire, fun hlong hrest => ?long⟩⟩
  case acquire =>
    subst he
    have htakes := takesEdge_of_edge hpowered (by rw [hacquire]; decide) rfl
    rw [activeEdge_accepted htakes haccepted, handleEdge_of_acquire (s := acceptEdge s) hacquire]
    exact edgeInAcquire_ends _ (s := acceptEdge s) hwindow hrest
  case long =>
    subst he
    have hstate : s.disc.state = .track ∨ s.disc.state = .locked := hlong.imp And.left And.left
    have htakes := takesEdge_of_edge hpowered (by rcases hstate with h | h <;> rw [h] <;> decide) rfl
    have hacquire : s.disc.state ≠ .acquire := by rcases hstate with h | h <;> rw [h] <;> decide
    have htime : (handleEdge (acceptEdge s)).time = s.time := handleEdge_time_of_not_acquire (s := acceptEdge s) hacquire
    have hdisc : (handleEdge (acceptEdge s)).disc = (acceptEdge s).disc.intoLong (acceptEdge s).disc.lastE :=
      (handleEdge_disc _).trans (afterEdge_of_long hlong)
    obtain ⟨hempty, hf, hs⟩ := intoLong_trims (acceptEdge s).disc.lastE (d := (acceptEdge s).disc) hwindow hrest
    rw [activeEdge_accepted htakes haccepted, hdisc]
    exact ⟨hempty, htime, hf, hs⟩

/-! ## Requests carried out and refused -/

theorem request_carried {p : Port} {code : Byte} {s u : State} {rule : State → Reply} {data : List Byte}
    (h : s.takesFrames p = true) (hrule : rule s = ok u data) : request p code s rule = answer p ⟨.ok, code, data⟩ u := by
  rw [request_taken h, hrule]
  rfl

theorem request_refused {p : Port} {code : Byte} {s : State} {rule : State → Reply} {st : Status}
    (h : s.takesFrames p = true) (hrule : rule s = refuse s st) : request p code s rule = answer p ⟨st, code, []⟩ s := by
  rw [request_taken h, hrule]
  rfl

/-! ## DISCIPLINE STATUS -/

/-- What a DISCIPLINE STATUS shows as its window fill in each state (R34). -/
theorem Discipline.fillShown_spec (d : Discipline) :
    (d.state = .acquire ∨ d.state = .track ∨ d.state = .locked → d.fillShown = d.window.length) ∧
      (d.state = .search ∨ d.state = .holdover → d.fillShown = d.pairCount) ∧ (d.state = .freerun → d.fillShown = 0) := by
  unfold fillShown
  cases d.state <;> simp

/-- A request that takes no arguments is refused where its frame has some. -/
theorem disciplineStatus_of_args {p : Port} {args : List Byte} (h : args ≠ []) (s : State) :
    disciplineStatus p args s = refuse s .badArgument := by
  rw [disciplineStatus, if_pos (by simpa using h)]

/-- Settles O22: the rule's one branch for no arguments, with the fill of `Discipline.fillShown_spec`. -/
theorem disciplineStatusClearsOneFlag : Obligations.DisciplineStatusClearsOneFlag := by
  intro p s htakes
  exact ⟨⟨s.disc.fillShown, congrArg _ (request_carried htakes rfl), s.disc.fillShown_spec⟩,
    fun args hargs => congrArg _ (request_refused htakes (disciplineStatus_of_args hargs s))⟩

end Sys2Proof.Machine
end

section
/-! SUPPORT. What occurrences and postings add to a ring, what they leave of the vectors and of the capture record, and how a change
of the discipline state is reported (R29, R122, R126 to R128, R139 to R141, R154 to R158). -/

namespace Sys2Proof.Machine

open Sys2Proof.Safety

/-! ## One occurrence by its three cases -/

/-- The fault log with an unmasked occurrence counted and captured, FAULTn set anew (R154, R155, R159). -/
def occurrenceLogged (k : FaultKind) (port : Option Port) (ctx : FaultContext) (s : State) : State :=
  setFaultn (captureOccurrence k port ctx (bumpCount k s))

/-- The fault log, the rings and the vectors are the same. -/
structure SameLog (s t : State) : Prop where
  faults : t.faults = s.faults
  rings : t.rings = s.rings
  vectors : t.vectors = s.vectors

theorem occurOne_of_masked {k : FaultKind} {s : State} (hmasked : (s.faults.cells.get k.idx).masked = true) (port : Option Port)
    (ctx : FaultContext) : occurOne k port ctx s = (bumpCount k s, []) := by
  simp [occurOne, hmasked]

/-- An unmasked occurrence of a kind that has a count already is not notified (R156). -/
theorem occurOne_of_counted {k : FaultKind} {s : State} (hmasked : (s.faults.cells.get k.idx).masked = false)
    (hcount : (s.faults.cells.get k.idx).count ≠ 0) (port : Option Port) (ctx : FaultContext) :
    SameLog (occurrenceLogged k port ctx s) (occurOne k port ctx s).1 ∧ (occurOne k port ctx s).2 = [] := by
  have hnot : ¬(s.faults.cells.get k.idx).masked = true := by simp [hmasked]
  unfold occurOne occurrenceLogged
  dsimp only
  generalize setFaultn (captureOccurrence k port ctx (bumpCount k s)) = logged
  simp only [if_neg hnot, if_neg hcount, and_true]
  split <;> exact ⟨rfl, rfl, rfl⟩

/-- The first unmasked occurrence of a kind is notified (R156). -/
theorem occurOne_of_first {k : FaultKind} {s : State} (hmasked : (s.faults.cells.get k.idx).masked = false)
    (hcount : (s.faults.cells.get k.idx).count = 0) (port : Option Port) (ctx : FaultContext) :
    SameLog (notifyOccurrence k (s.faults.cells.get k.idx).severity (occurrenceLogged k port ctx s)).1
        (occurOne k port ctx s).1 ∧
      (occurOne k port ctx s).2 =
        (notifyOccurrence k (s.faults.cells.get k.idx).severity (occurrenceLogged k port ctx s)).2 := by
  have hnot : ¬(s.faults.cells.get k.idx).masked = true := by simp [hmasked]
  unfold occurOne occurrenceLogged
  dsimp only
  generalize setFaultn (captureOccurrence k port ctx (bumpCount k s)) = logged
  simp only [if_neg hnot, if_pos hcount]
  generalize notifyOccurrence k (s.faults.cells.get k.idx).severity logged = notified
  split <;> exact ⟨⟨rfl, rfl, rfl⟩, trivial⟩

theorem occurrenceLogged_logOnly (k : FaultKind) (port : Option Port) (ctx : FaultContext) (s : State) :
    LogOnly s (occurrenceLogged k port ctx s) :=
  ((bumpCount_logOnly k s).trans (captureOccurrence_logOnly k port ctx _)).trans (setFaultn_logOnly _)

@[simp] theorem occurrenceLogged_rings (k : FaultKind) (port : Option Port) (ctx : FaultContext) (s : State) :
    (occurrenceLogged k port ctx s).rings = s.rings := by
  unfold occurrenceLogged captureOccurrence
  split <;> rfl

@[simp] theorem occurrenceLogged_vectors (k : FaultKind) (port : Option Port) (ctx : FaultContext) (s : State) :
    (occurrenceLogged k port ctx s).vectors = s.vectors := by
  unfold occurrenceLogged captureOccurrence
  split <;> rfl

/-! ## What every part of an occurrence keeps, an occurrence keeps -/

theorem freeOrder_vectors (l : List Port) (s : State) : (freeOrder l s).2.vectors = s.vectors := by
  unfold freeOrder
  split <;> rfl

theorem freeOrder_sameLog (l : List Port) (s : State) : SameLog s (freeOrder l s).2 :=
  ⟨freeOrder_faults l s, freeOrder_rings l s, freeOrder_vectors l s⟩

/-- A relation between states that each part of an occurrence keeps. -/
structure OccurrenceKeeps (R : State → State → Prop) : Prop where
  same : ∀ {s t : State}, SameLog s t → R s t
  trans : ∀ {s t u : State}, R s t → R t u → R s u
  bump : ∀ k s, R s (bumpCount k s)
  logged : ∀ k port ctx s, R s (occurrenceLogged k port ctx s)
  notify : ∀ k sev s, R s (notifyOccurrence k sev s).1

section
variable {R : State → State → Prop} (h : OccurrenceKeeps R)
include h

theorem OccurrenceKeeps.occurOne (k : FaultKind) (port : Option Port) (ctx : FaultContext) (s : State) :
    R s (occurOne k port ctx s).1 := by
  cases hmasked : (s.faults.cells.get k.idx).masked with
  | true =>
    rw [occurOne_of_masked hmasked]
    exact h.bump k s
  | false =>
    have hlogged := h.logged k port ctx s
    by_cases hcount : (s.faults.cells.get k.idx).count = 0
    · exact h.trans (h.trans hlogged (h.notify _ _ _)) (h.same (occurOne_of_first hmasked hcount port ctx).1)
    · exact h.trans hlogged (h.same (occurOne_of_counted hmasked hcount port ctx).1)

theorem OccurrenceKeeps.occurOverflows (ps : List Port) (s : State) : R s (occurOverflows ps s).1 := by
  induction ps generalizing s with
  | nil => exact h.same ⟨rfl, rfl, rfl⟩
  | cons p ps ih => exact h.trans (h.occurOne _ _ _ s) (ih _)

theorem OccurrenceKeeps.reportOverflows (ps : List Port) (s : State) : R s (reportOverflows ps s) :=
  h.trans (h.trans (h.same (freeOrder_sameLog ps s)) (h.occurOverflows _ _))
    (h.trans (h.same (freeOrder_sameLog _ _)) (h.occurOverflows _ _))

theorem OccurrenceKeeps.occur (k : FaultKind) (port : Option Port) (ctx : FaultContext) (s : State) :
    R s (occur k port ctx s) :=
  h.trans (h.occurOne k port ctx s) (h.reportOverflows _ _)

end

/-! ## What joins a ring -/

/-- Records with bodies of `P` join the ring of `p`, and its selection stays. -/
structure GrowsBy (P : RecordBody → Prop) (p : Port) (s t : State) : Prop where
  records : ∃ added, (t.rings.get p).records = (s.rings.get p).records ++ added ∧ ∀ r ∈ added, P r.body
  selDiscipline : (t.rings.get p).selDiscipline = (s.rings.get p).selDiscipline

section
variable {P : RecordBody → Prop} {p : Port} {s t u : State}

theorem GrowsBy.of_rings (h : t.rings = s.rings) : GrowsBy P p s t := ⟨⟨[], by simp [h]⟩, by rw [h]⟩

theorem GrowsBy.refl (s : State) : GrowsBy P p s s := .of_rings rfl

theorem GrowsBy.trans (h : GrowsBy P p s t) (k : GrowsBy P p t u) : GrowsBy P p s u := by
  obtain ⟨⟨a, ha, hPa⟩, hsel⟩ := h
  obtain ⟨⟨b, hb, hPb⟩, ksel⟩ := k
  refine ⟨⟨a ++ b, by rw [hb, ha, List.append_assoc], fun r hr => ?_⟩, ksel.trans hsel⟩
  exact (List.mem_append.1 hr).elim (hPa r) (hPb r)

/-- What comes before and leaves the rings alone does not matter. -/
theorem GrowsBy.after (k : GrowsBy P p t u) (h : t.rings = s.rings) : GrowsBy P p s u := (GrowsBy.of_rings h).trans k

theorem ringPut_growsBy {q : Port} {r : Record} (h : q = p → P r.body) (s : State) : GrowsBy P p s (ringPut q r s).1 := by
  by_cases hq : q = p
  · subst hq
    constructor <;> rw [ringPut_rings, Tab.get_set_self, Ring.take]
    · split
      · exact ⟨[_], rfl, fun r' hr' => by rw [List.mem_singleton.1 hr']; exact h rfl⟩
      · exact ⟨[], by simp⟩
    · split <;> rfl
  · constructor <;> rw [ringPut_rings, Tab.get_set_ne _ _ hq]
    exact ⟨[], by simp⟩

theorem ringPutAll_growsBy {r : Record} {ps : List Port} (h : p ∈ ps → P r.body) (s : State) :
    GrowsBy P p s (ringPutAll r ps s).1 := by
  induction ps generalizing s with
  | nil => exact .refl s
  | cons q ps ih =>
    exact (ringPut_growsBy (fun hq => h (by simp [hq])) s).trans (ih (fun hp => h (List.mem_cons_of_mem q hp)) _)

section
variable (hfault : ∀ k sev, P (.fault k sev))
include hfault

theorem notifyOccurrence_growsBy (k : FaultKind) (sev : Severity) (s : State) :
    GrowsBy P p s (notifyOccurrence k sev s).1 :=
  (ringPutAll_growsBy (fun _ => hfault k sev) s).trans (.of_rings (raiseClassAll_rings _ _ _))

theorem growsBy_occurrenceKeeps : OccurrenceKeeps (GrowsBy P p) where
  same h := .of_rings h.rings
  trans := .trans
  bump _ _ := .of_rings rfl
  logged k port ctx s := .of_rings (occurrenceLogged_rings k port ctx s)
  notify := notifyOccurrence_growsBy hfault

/-- An occurrence posts FAULT records and no others. -/
theorem occur_growsBy (k : FaultKind) (port : Option Port) (ctx : FaultContext) (s : State) :
    GrowsBy P p s (occur k port ctx s) :=
  (growsBy_occurrenceKeeps hfault).occur k port ctx s

theorem reportOverflows_growsBy (ps : List Port) (s : State) : GrowsBy P p s (reportOverflows ps s) :=
  (growsBy_occurrenceKeeps hfault).reportOverflows ps s

theorem post_growsBy {r : Record} (hr : P r.body) (q : Port) (s : State) : GrowsBy P p s (post q r s) := by
  unfold post
  dsimp only
  split
  · exact (ringPut_growsBy (fun _ => hr) s).trans (reportOverflows_growsBy hfault _ _)
  · exact ringPut_growsBy (fun _ => hr) s

theorem postAll_growsBy {r : Record} {ps : List Port} (h : p ∈ ps → P r.body) (s : State) : GrowsBy P p s (postAll r ps s) :=
  (ringPutAll_growsBy h s).trans (reportOverflows_growsBy hfault _ _)

end

/-! ## What expiries and forward steps add to a ring -/

section
variable (hfault : ∀ k sev, P (.fault k sev))
  (hfired : ∀ tag slot phase lateness skipped remaining, P (.fired tag slot phase lateness skipped remaining))

include hfault in
theorem lateFire_growsBy (a : Armed) (n : Nat) (s : State) : GrowsBy P p s (lateFire a n s) := by
  unfold lateFire
  split
  · exact occur_growsBy hfault _ _ _ s
  · exact .refl s

theorem expiryDrive_rings (a : Armed) (s : State) : (expiryDrive a s).rings = s.rings := by
  unfold expiryDrive
  split <;> rfl

theorem continueEntry_rings (a : Armed) (c : Continuation) (s : State) : (continueEntry a c s).rings = s.rings := by
  unfold continueEntry
  split <;> rfl

theorem entryRaise_rings (a : Armed) (s : State) : (entryRaise a s).rings = s.rings := by
  unfold entryRaise
  split <;> rfl

include hfault hfired

theorem firedRecord_growsBy (a : Armed) (n : Nat) (c : Continuation) (s : State) : GrowsBy P p s (firedRecord a n c s) := by
  unfold firedRecord
  dsimp only
  split
  · exact post_growsBy hfault (hfired _ _ _ _ _ _) _ s
  · exact .refl s

theorem completeFiring_growsBy (a : Armed) (n : Nat) (s : State) : GrowsBy P p s (completeFiring a n s) :=
  (((GrowsBy.of_rings (continueEntry_rings a _ s)).trans (firedRecord_growsBy hfault hfired a n _ _)).trans
    (.of_rings (entryRaise_rings a _))).trans (lateFire_growsBy hfault a n _)

theorem expireOne_growsBy (a : Armed) (n : Nat) (s : State) : GrowsBy P p s (expireOne a n s) := by
  have hdrive : GrowsBy P p s (expiryDrive a s) := .of_rings (expiryDrive_rings a s)
  cases h : a.isLead with
  | true =>
    obtain ⟨k, level, width, hact, hphase⟩ := Armed.isLead_iff.1 h
    rw [expireOne_of_lead hact hphase]
    exact hdrive.trans ((lateFire_growsBy hfault a n _).after rfl)
  | false =>
    rw [expireOne_of_not_lead h]
    exact hdrive.trans (completeFiring_growsBy hfault hfired a n _)

/-- Expiries post FIRED and FAULT records and no others. -/
theorem takeDue_growsBy (late : Bool) (s : State) : GrowsBy P p s (takeDue late s).1 := by
  unfold takeDue
  generalize 2 * s.sched.armed.length = n
  induction n generalizing s with
  | zero => exact .refl s
  | succ n ih =>
    unfold expireDue
    split
    · exact .refl s
    · split
      · refine GrowsBy.trans ?_ (ih _)
        exact (expireOne_growsBy hfault hfired _ _ _).after rfl
      · exact .refl s

theorem forwardStep_growsBy (d : Nat) (s : State) : GrowsBy P p s (forwardStep d s) := by
  obtain ⟨draws, horders⟩ := stepNotices_orders ((s.time.step d).ht - s.time.ht) { s with time := s.time.step d }
  have hmarked : GrowsBy P p s { markWindows { s with time := s.time.step d } with choices := draws } := .of_rings rfl
  unfold forwardStep
  rcases horders with h | h <;> dsimp only <;> rw [h]
  · exact hmarked.trans ((takeDue_growsBy hfault hfired _ _).trans (occur_growsBy hfault _ _ _ _))
  · exact hmarked.trans ((occur_growsBy hfault _ _ _ _).trans (takeDue_growsBy hfault hfired _ _))

end
end

/-! ## How many records an occurrence adds -/

/-- At most `n` records join each ring. -/
def AddsAtMost (n : Nat) (s t : State) : Prop :=
  ∀ p : Port, (t.rings.get p).records.length ≤ (s.rings.get p).records.length + n

theorem AddsAtMost.of_rings {s t : State} (h : t.rings = s.rings) (n : Nat) : AddsAtMost n s t := fun p => by simp [h]

theorem AddsAtMost.trans {m n : Nat} {s t u : State} (h : AddsAtMost m s t) (k : AddsAtMost n t u) :
    AddsAtMost (m + n) s u := by
  intro p
  have := h p
  have := k p
  omega

theorem Ring.length_take (r : Record) (g : Ring) : (g.take r).records.length ≤ g.records.length + 1 := by
  unfold Ring.take
  split <;> simp

theorem length_ringPut (p q : Port) (r : Record) (s : State) :
    ((ringPut p r s).1.rings.get q).records.length ≤ (s.rings.get q).records.length + if q = p then 1 else 0 := by
  rw [ringPut_rings, Tab.get_set]
  by_cases h : p = q
  · subst h
    simpa using Ring.length_take r _
  · simp [h]

/-- A posting to distinct rings adds at most one record to each. -/
theorem length_ringPutAll (q : Port) (r : Record) {ps : List Port} (hps : ps.Nodup) (s : State) :
    ((ringPutAll r ps s).1.rings.get q).records.length ≤ (s.rings.get q).records.length + if q ∈ ps then 1 else 0 := by
  induction ps generalizing s with
  | nil => simp [ringPutAll]
  | cons p ps ih =>
    obtain ⟨hp, hps⟩ := List.nodup_cons.1 hps
    have hrest := ih hps (ringPut p r s).1
    have hfirst := length_ringPut p q r s
    change ((ringPutAll r ps (ringPut p r s).1).1.rings.get q).records.length ≤ _
    by_cases hq : q = p
    · subst hq
      simp only [if_neg hp, if_true, List.mem_cons, true_or] at hrest hfirst ⊢
      omega
    · simp only [hq, if_false, List.mem_cons, false_or] at hfirst ⊢
      omega

theorem notifyOccurrence_addsAtMost (k : FaultKind) (sev : Severity) (s : State) :
    AddsAtMost 1 s (notifyOccurrence k sev s).1 := by
  intro q
  have hnodup : (faultSelectors s).Nodup := List.Nodup.filter _ (by decide)
  have hlen := length_ringPutAll q (plainRecord s (.fault k sev)) hnodup s
  unfold notifyOccurrence
  simp only [raiseClassAll_rings]
  split at hlen <;> omega

/-- Where the kind has a count already an occurrence posts nothing (R156). -/
theorem occurOne_rings_of_counted {k : FaultKind} {s : State} (h : countOf s k ≠ 0) (port : Option Port) (ctx : FaultContext) :
    (occurOne k port ctx s).1.rings = s.rings := by
  cases hmasked : (s.faults.cells.get k.idx).masked with
  | true => rw [occurOne_of_masked hmasked, bumpCount_rings]
  | false => rw [(occurOne_of_counted hmasked h port ctx).1.rings, occurrenceLogged_rings]

theorem occurOne_addsAtMost (k : FaultKind) (port : Option Port) (ctx : FaultContext) (s : State) :
    AddsAtMost 1 s (occurOne k port ctx s).1 := by
  by_cases hcount : countOf s k = 0
  · cases hmasked : (s.faults.cells.get k.idx).masked with
    | true =>
      rw [occurOne_of_masked hmasked]
      exact .of_rings rfl 1
    | false =>
      intro q
      have hposted := notifyOccurrence_addsAtMost k (s.faults.cells.get k.idx).severity (occurrenceLogged k port ctx s) q
      rwa [← (occurOne_of_first hmasked hcount port ctx).1.rings, occurrenceLogged_rings] at hposted
  · exact .of_rings (occurOne_rings_of_counted hcount port ctx) 1

theorem bumped_ne_zero (n : Nat) : bumped n ≠ 0 := by
  unfold bumped
  omega

theorem occurOne_counted (k : FaultKind) (port : Option Port) (ctx : FaultContext) (s : State) :
    countOf (occurOne k port ctx s).1 k ≠ 0 := by
  rw [occurOne_count, if_pos rfl]
  exact bumped_ne_zero _

/-- Once RING_OVERFLOW has a count, its further occurrences post nothing (R128, R156). -/
theorem occurOverflows_of_counted {s : State} (h : countOf s .ringOverflow ≠ 0) (ps : List Port) :
    (occurOverflows ps s).1.rings = s.rings ∧ countOf (occurOverflows ps s).1 .ringOverflow ≠ 0 := by
  induction ps generalizing s with
  | nil => exact ⟨rfl, h⟩
  | cons p ps ih =>
    obtain ⟨hrings, hcount⟩ := ih (occurOne_counted .ringOverflow (some p) .none s)
    exact ⟨hrings.trans (occurOne_rings_of_counted h _ _), hcount⟩

theorem occurOverflows_cons (p : Port) (ps : List Port) (s : State) :
    AddsAtMost 1 s (occurOverflows (p :: ps) s).1 ∧ countOf (occurOverflows (p :: ps) s).1 .ringOverflow ≠ 0 := by
  obtain ⟨hrings, hcount⟩ := occurOverflows_of_counted (occurOne_counted .ringOverflow (some p) .none s) ps
  exact ⟨(occurOne_addsAtMost _ _ _ s).trans (.of_rings hrings 0), hcount⟩

/-- The overflow episodes of an event add at most one FAULT record to each ring (R128). -/
theorem reportOverflows_addsAtMost (drops : List Port) (s : State) : AddsAtMost 1 s (reportOverflows drops s) := by
  have hdrawn : AddsAtMost 0 s (freeOrder drops s).2 := .of_rings (freeOrder_rings drops s) 0
  unfold reportOverflows
  dsimp only
  rcases (freeOrder drops s).1 with _ | ⟨p, ps⟩
  · exact hdrawn.trans (.of_rings rfl 1)
  · obtain ⟨hadds, hcount⟩ := occurOverflows_cons p ps (freeOrder drops s).2
    generalize occurOverflows (p :: ps) (freeOrder drops s).2 = round at hadds hcount ⊢
    have hfree : AddsAtMost 0 round.1 (freeOrder round.2 round.1).2 := .of_rings (freeOrder_rings _ _) 0
    have hcount' : countOf (freeOrder round.2 round.1).2 .ringOverflow ≠ 0 := by
      rwa [countOf_of_faults (freeOrder_faults _ _)]
    exact ((hdrawn.trans hadds).trans hfree).trans (.of_rings (occurOverflows_of_counted hcount' _).1 0)

/-- An occurrence adds at most two FAULT records to each ring: its own, and one of RING_OVERFLOW. -/
theorem occur_addsAtMost (k : FaultKind) (port : Option Port) (ctx : FaultContext) (s : State) :
    AddsAtMost 2 s (occur k port ctx s) :=
  (occurOne_addsAtMost k port ctx s).trans (reportOverflows_addsAtMost _ _)

/-! ## Raises -/

theorem NotifyUnit.raise_of_enabled {n : NotifyUnit} (h : n.enable = true) (v : VecNo) :
    ((n.raise v).vecs.get v).state ≠ .idle := by
  simp only [NotifyUnit.raise, h, if_true, NotifyUnit.setLine, Tab.get_set_self]
  split
  · split <;> simp
  · assumption

/-- A raise leaves a vector that is not IDLE so, and the class map and the enable (R141). -/
structure RaiseKept (n n' : NotifyUnit) : Prop where
  enable : n'.enable = n.enable
  classMap : n'.classMap = n.classMap
  raised : ∀ v, (n.vecs.get v).state ≠ .idle → (n'.vecs.get v).state ≠ .idle

theorem NotifyUnit.raise_kept (v : VecNo) (n : NotifyUnit) : RaiseKept n (n.raise v) := by
  cases henable : n.enable with
  | false =>
    have hsame : n.raise v = n := by simp [NotifyUnit.raise, henable]
    rw [hsame]
    exact ⟨rfl, rfl, fun _ h => h⟩
  | true =>
    refine ⟨?_, ?_, fun w hw => ?_⟩
    · simp [NotifyUnit.raise, henable, NotifyUnit.setLine]
    · simp [NotifyUnit.raise, henable, NotifyUnit.setLine]
    · by_cases h : v = w
      · subst h
        exact raise_of_enabled henable v
      · simpa [NotifyUnit.raise, henable, NotifyUnit.setLine, h] using hw

/-- From `s` to `t` nothing but raises has come to the vectors of any port. -/
def RaisesKept (s t : State) : Prop := ∀ p : Port, RaiseKept (s.vectors.get p) (t.vectors.get p)

theorem RaisesKept.of_vectors {s t : State} (h : t.vectors = s.vectors) : RaisesKept s t := fun p => by
  rw [h]
  exact ⟨rfl, rfl, fun _ h => h⟩

theorem RaisesKept.refl (s : State) : RaisesKept s s := .of_vectors rfl

theorem RaisesKept.trans {s t u : State} (h : RaisesKept s t) (k : RaisesKept t u) : RaisesKept s u := fun p =>
  ⟨(k p).enable.trans (h p).enable, (k p).classMap.trans (h p).classMap, fun v hv => (k p).raised v ((h p).raised v hv)⟩

theorem raiseClass_raisesKept (p : Port) (c : RaiseClass) (s : State) : RaisesKept s (raiseClass p c s) := by
  intro q
  unfold raiseClass
  rw [raiseVec_vectors, Tab.get_upd]
  split
  · next h =>
    subst h
    exact NotifyUnit.raise_kept _ _
  · exact ⟨rfl, rfl, fun _ h => h⟩

theorem raiseClassAll_raisesKept (c : RaiseClass) (ps : List Port) (s : State) : RaisesKept s (raiseClassAll c ps s) := by
  induction ps generalizing s with
  | nil => exact .refl s
  | cons p ps ih => exact (raiseClass_raisesKept p c s).trans (ih _)

theorem ringPut_raisesKept (p : Port) (r : Record) (s : State) : RaisesKept s (ringPut p r s).1 := by
  have hput : RaisesKept s { s with rings := s.rings.set p ((s.rings.get p).take r) } := .of_vectors rfl
  unfold ringPut
  dsimp only
  split <;> split
  · exact (hput.trans (raiseClass_raisesKept _ _ _)).trans (raiseClass_raisesKept _ _ _)
  · exact hput.trans (raiseClass_raisesKept _ _ _)
  · exact hput.trans (raiseClass_raisesKept _ _ _)
  · exact hput

theorem ringPutAll_raisesKept (r : Record) (ps : List Port) (s : State) : RaisesKept s (ringPutAll r ps s).1 := by
  induction ps generalizing s with
  | nil => exact .refl s
  | cons p ps ih => exact (ringPut_raisesKept p r s).trans (ih _)

theorem notifyOccurrence_raisesKept (k : FaultKind) (sev : Severity) (s : State) :
    RaisesKept s (notifyOccurrence k sev s).1 :=
  (ringPutAll_raisesKept _ _ s).trans (raiseClassAll_raisesKept _ _ _)

theorem raisesKept_occurrenceKeeps : OccurrenceKeeps RaisesKept where
  same h := .of_vectors h.vectors
  trans := .trans
  bump _ _ := .of_vectors rfl
  logged k port ctx s := .of_vectors (occurrenceLogged_vectors k port ctx s)
  notify := notifyOccurrence_raisesKept

theorem occur_raisesKept (k : FaultKind) (port : Option Port) (ctx : FaultContext) (s : State) :
    RaisesKept s (occur k port ctx s) := raisesKept_occurrenceKeeps.occur k port ctx s

theorem postAll_raisesKept (r : Record) (ps : List Port) (s : State) : RaisesKept s (postAll r ps s) :=
  (ringPutAll_raisesKept r ps s).trans (raisesKept_occurrenceKeeps.reportOverflows _ _)

/-! ## Class raises -/

theorem ClassRaised_later {s t u : State} {p : Port} {c : RaiseClass} (h : ClassRaised s t p c) (k : RaisesKept t u) :
    ClassRaised s u p c := fun henable => (k p).raised _ (h henable)

theorem ClassRaised_before {s t u : State} {p : Port} {c : RaiseClass} (h : ClassRaised t u p c) (k : RaisesKept s t) :
    ClassRaised s u p c := by
  intro henable
  rw [← (k p).classMap]
  exact h ((k p).enable.trans henable)

theorem raiseClass_classRaised (p : Port) (c : RaiseClass) (s : State) : ClassRaised s (raiseClass p c s) p c := by
  intro henable
  unfold raiseClass
  rw [raiseVec_vectors, Tab.get_upd_self]
  exact NotifyUnit.raise_of_enabled henable _

theorem raiseClassAll_classRaised {p : Port} {ps : List Port} (h : p ∈ ps) (c : RaiseClass) (s : State) :
    ClassRaised s (raiseClassAll c ps s) p c := by
  induction ps generalizing s with
  | nil => cases h
  | cons q ps ih =>
    rcases List.mem_cons.1 h with rfl | hp
    · exact ClassRaised_later (raiseClass_classRaised p c s) (raiseClassAll_raisesKept c ps _)
    · exact ClassRaised_before (ih hp _) (raiseClass_raisesKept q c s)

/-! ## The capture record -/

/-- A capture record that is held stays (R155). -/
def CaptureKept (s t : State) : Prop := ∀ c, s.faults.capture = some c → t.faults.capture = some c

theorem CaptureKept.of_faults {s t : State} (h : t.faults = s.faults) : CaptureKept s t := fun c hc => by rw [h, hc]

theorem CaptureKept.trans {s t u : State} (h : CaptureKept s t) (k : CaptureKept t u) : CaptureKept s u :=
  fun c hc => k c (h c hc)

theorem occurrenceLogged_captureKept (k : FaultKind) (port : Option Port) (ctx : FaultContext) (s : State) :
    CaptureKept s (occurrenceLogged k port ctx s) := by
  intro c hc
  have hheld : (bumpCount k s).faults.capture = some c := hc
  unfold occurrenceLogged captureOccurrence
  rw [hheld]
  exact hc

/-- The first unmasked occurrence is captured (R155). -/
theorem occurrenceLogged_captures {s : State} (h : s.faults.capture = none) (k : FaultKind) (port : Option Port)
    (ctx : FaultContext) :
    (occurrenceLogged k port ctx s).faults.capture = some ⟨k, s.time.ht, s.time.epoch, port, ctx⟩ := by
  have hnone : (bumpCount k s).faults.capture = none := h
  unfold occurrenceLogged captureOccurrence
  rw [hnone]
  rfl

theorem notifyOccurrence_faults (k : FaultKind) (sev : Severity) (s : State) : (notifyOccurrence k sev s).1.faults = s.faults := by
  rw [notifyOccurrence, raiseClassAll_faults, ringPutAll_faults]

theorem occurOne_faults_of_unmasked {k : FaultKind} {s : State} (hmasked : (s.faults.cells.get k.idx).masked = false)
    (port : Option Port) (ctx : FaultContext) :
    (occurOne k port ctx s).1.faults = (occurrenceLogged k port ctx s).faults := by
  by_cases hcount : (s.faults.cells.get k.idx).count = 0
  · rw [(occurOne_of_first hmasked hcount port ctx).1.faults, notifyOccurrence_faults]
  · exact (occurOne_of_counted hmasked hcount port ctx).1.faults

theorem captureKept_occurrenceKeeps : OccurrenceKeeps CaptureKept where
  same h := .of_faults h.faults
  trans := .trans
  bump _ _ _ hc := hc
  logged := occurrenceLogged_captureKept
  notify k sev s := .of_faults (notifyOccurrence_faults k sev s)

theorem postAll_captureKept (r : Record) (ps : List Port) (s : State) : CaptureKept s (postAll r ps s) :=
  (CaptureKept.of_faults (ringPutAll_faults r ps s)).trans (captureKept_occurrenceKeeps.reportOverflows _ _)

/-- An unmasked occurrence is captured where no capture record is held (R155). -/
theorem occur_captures {k : FaultKind} {s : State} (hmasked : (s.faults.cells.get k.idx).masked = false)
    (hnone : s.faults.capture = none) (port : Option Port) (ctx : FaultContext) :
    (occur k port ctx s).faults.capture = some ⟨k, s.time.ht, s.time.epoch, port, ctx⟩ := by
  have hone : (occurOne k port ctx s).1.faults.capture = some ⟨k, s.time.ht, s.time.epoch, port, ctx⟩ := by
    rw [occurOne_faults_of_unmasked hmasked]
    exact occurrenceLogged_captures hnone k port ctx
  exact captureKept_occurrenceKeeps.reportOverflows _ _ _ hone

/-! ## The FAULT record of an occurrence -/

theorem mem_allPorts (p : Port) : p ∈ allPorts := by
  revert p
  decide

theorem mem_faultSelectors {p : Port} {s : State} : p ∈ faultSelectors s ↔ (s.rings.get p).selFault = true := by
  simp [faultSelectors, mem_allPorts]

/-- The first unmasked occurrence of a kind puts its FAULT record into each selecting ring with room, before anything else that the
event posts (R156). -/
theorem occur_appended {k : FaultKind} {p : Port} {s : State} (hmasked : (s.faults.cells.get k.idx).masked = false)
    (hcount : (s.faults.cells.get k.idx).count = 0) (hsel : (s.rings.get p).selFault = true)
    (hroom : (s.rings.get p).records.length < 32) (port : Option Port) (ctx : FaultContext) :
    Appended s (occur k port ctx s) p (plainRecord s (.fault k (s.faults.cells.get k.idx).severity)) := by
  have hlog := occurrenceLogged_logOnly k port ctx s
  have hrings := occurrenceLogged_rings k port ctx s
  have hfirst := (occurOne_of_first hmasked hcount port ctx).1.rings
  have hrecord : plainRecord (occurrenceLogged k port ctx s) (.fault k (s.faults.cells.get k.idx).severity) =
      plainRecord s (.fault k (s.faults.cells.get k.idx).severity) := by
    simp only [plainRecord, stamped, State.isLocked, hlog.time, hlog.disc]
  have hput := ringPutAll_appended (p := p) (s := occurrenceLogged k port ctx s) (by rwa [hrings])
    (plainRecord (occurrenceLogged k port ctx s) (.fault k (s.faults.cells.get k.idx).severity))
    (mem_faultSelectors.2 (by rwa [hrings]))
  have hone : Appended s (occurOne k port ctx s).1 p (plainRecord s (.fault k (s.faults.cells.get k.idx).severity)) := by
    unfold Appended at hput ⊢
    rw [hfirst, notifyOccurrence, raiseClassAll_rings]
    rw [hrecord] at hput ⊢
    simpa only [asAppended, hrings] using hput
  exact Appended_later hone (reportOverflows_grow _ _)

/-! ## Reports of a change of state (R29) -/

theorem mem_disciplineSelectors {p : Port} {s : State} : p ∈ disciplineSelectors s ↔ (s.rings.get p).selDiscipline = true := by
  simp [disciplineSelectors, mem_allPorts]

/-- A report adds the DISCIPLINE record to the selecting rings, and FAULT records where a ring overflows. -/
theorem reportChange_growsBy {P : RecordBody → Prop} {p : Port} (hfault : ∀ k sev, P (.fault k sev)) {old new : DiscState}
    {s : State} (h : (s.rings.get p).selDiscipline = true → P (.discipline old new s.disc.lastE)) :
    GrowsBy P p s (reportChange old new s) :=
  (postAll_growsBy hfault (fun hp => h (mem_disciplineSelectors.1 hp)) s).trans
    (.of_rings (raiseClassAll_rings _ _ _))

theorem Posted_of_appended {s t : State} {p : Port} {r : Record} (h : Appended s t p r) : Posted s t p r := by
  obtain ⟨later, hlater⟩ := h
  exact ⟨[], later, (s.rings.get p).pendingDrops, by simpa [asAppended] using hlater⟩

theorem Posted_later {s t u : State} {p : Port} {r : Record} (h : Posted s t p r) (k : RecordsGrow t u) : Posted s u p r := by
  obtain ⟨before, later, drops, ht⟩ := h
  obtain ⟨more, hu⟩ := k p
  exact ⟨before, later ++ more, drops, by rw [hu, ht]; simp⟩

theorem Posted_before {s t u : State} {p : Port} {r : Record} (h : Posted t u p r) (k : RecordsGrow s t) : Posted s u p r := by
  obtain ⟨before, later, drops, hu⟩ := h
  obtain ⟨more, ht⟩ := k p
  exact ⟨more ++ before, later, drops, by rw [hu, ht]; simp⟩

theorem reportChange_reported (old new : DiscState) (s : State) :
    ChangeReported 1 old new s.disc.lastE s (reportChange old new s) where
  record p hsel hroom := by
    have hposted := postAll_appended (p := p) (s := s) (by omega)
      (stamped s (.discipline old new s.disc.lastE) false (decide (new = .locked))) (mem_disciplineSelectors.2 hsel)
    exact Posted_later (Posted_of_appended hposted) (.of_eq (raiseClassAll_rings _ _ _))
  raise p hsel :=
    ClassRaised_before (raiseClassAll_classRaised (mem_disciplineSelectors.2 hsel) _ _) (postAll_raisesKept _ _ s)

/-- A record of another kind than DISCIPLINE. -/
def NotChange (b : RecordBody) : Prop := ∀ old new e, b ≠ .discipline old new e

theorem NotChange.fault (k : FaultKind) (sev : Severity) : NotChange (.fault k sev) := fun _ _ _ => RecordBody.noConfusion

theorem NotChange.fired (tag : Byte) (slot : Slot) (phase : PhaseName) (lateness skipped remaining : Nat) :
    NotChange (.fired tag slot phase lateness skipped remaining) := fun _ _ _ => RecordBody.noConfusion

section
variable {room : Nat} {old new : DiscState} {e : Int} {s t u : State}

/-- What comes after a report does not take it back. -/
theorem ChangeReported_later (h : ChangeReported room old new e s t) (hgrow : RecordsGrow t u) (hraises : RaisesKept t u) :
    ChangeReported room old new e s u where
  record p hsel hroom := Posted_later (h.record p hsel hroom) hgrow
  raise p hsel := ClassRaised_later (h.raise p hsel) hraises

/-- Records that come before a report take from its room. -/
theorem ChangeReported_before {n : Nat} (h : ChangeReported room old new e t u) (htime : t.time = s.time)
    (hgrow : ∀ p, GrowsBy NotChange p s t) (hadds : AddsAtMost n s t) (hraises : RaisesKept s t) :
    ChangeReported (room + n) old new e s u where
  record p hsel hroom := by
    have hposted := h.record p ((hgrow p).selDiscipline.trans hsel) (by have := hadds p; omega)
    rw [htime] at hposted
    exact Posted_before hposted fun q => (hgrow q).records.imp fun _ => And.left
  raise p hsel := ClassRaised_before (h.raise p ((hgrow p).selDiscipline.trans hsel)) hraises

theorem ChangeReported_mono {room' : Nat} (h : ChangeReported room old new e s t) (hle : room ≤ room') :
    ChangeReported room' old new e s t where
  record p hsel hroom := h.record p hsel (by omega)
  raise := h.raise

end

theorem GrowsBy.noChangeReported {s t : State} {p : Port} (h : GrowsBy NotChange p s t) : NoChangeReported s t p := by
  obtain ⟨⟨added, hadded, hnot⟩, -⟩ := h
  intro added' hadded' r hr
  rw [List.append_cancel_left (hadded'.symm.trans hadded)] at hr
  exact hnot r hr

/-- From `s` to `t` a change of state, with last e then `e`, is reported as R29 says, and nothing else is. -/
structure ChangeTold (room : Nat) (e : Int) (s t : State) : Prop where
  changed : t.disc.state ≠ s.disc.state → ChangeReported room s.disc.state t.disc.state e s t
  unchanged : ∀ p, t.disc.state = s.disc.state ∨ (s.rings.get p).selDiscipline = false → GrowsBy NotChange p s t

/-- What comes before and touches nothing but the unit, in the same state, does not matter. -/
theorem ChangeTold.after {room : Nat} {e : Int} {s t : State} {d : Discipline} (h : ChangeTold room e { s with disc := d } t)
    (hstate : d.state = s.disc.state) : ChangeTold room e s t := by
  obtain ⟨hchanged, hunchanged⟩ := h
  dsimp only at hchanged hunchanged
  rw [hstate] at hchanged hunchanged
  exact ⟨fun hne => ⟨(hchanged hne).record, (hchanged hne).raise⟩, fun p hp => (hunchanged p hp).after rfl⟩

/-- No change of state, and no DISCIPLINE record. -/
theorem ChangeTold.of_same {room : Nat} {e : Int} {s t : State} (hstate : t.disc.state = s.disc.state)
    (h : ∀ p, GrowsBy NotChange p s t) : ChangeTold room e s t :=
  ⟨fun hne => absurd hstate hne, fun p _ => h p⟩

theorem ChangeTold.of_disc (room : Nat) (e : Int) {s : State} {d : Discipline} (hstate : d.state = s.disc.state) :
    ChangeTold room e s { s with disc := d } := .of_same hstate fun _ => .of_rings rfl

theorem enterState_told (new : DiscState) (s : State) : ChangeTold 1 s.disc.lastE s (enterState new s) := by
  by_cases hsame : s.disc.state = new
  · have hkept : enterState new s = { s with disc := { s.disc with state := new } } := by simp [enterState, hsame]
    rw [hkept]
    exact .of_disc _ _ hsame.symm
  · have hreport : enterState new s = reportChange s.disc.state new { s with disc := { s.disc with state := new } } := by
      simp [enterState, hsame]
    have hstate : (enterState new s).disc.state = new := by rw [enterState_disc]
    refine ⟨fun _ => ?_, fun p hp => ?_⟩
    · rw [hstate, hreport]
      obtain ⟨hrecord, hraise⟩ := reportChange_reported s.disc.state new { s with disc := { s.disc with state := new } }
      exact ⟨hrecord, hraise⟩
    · rw [hstate, or_iff_right (Ne.symm hsame)] at hp
      have hgrow : GrowsBy NotChange p { s with disc := { s.disc with state := new } } (enterState new s) := by
        rw [hreport]
        exact reportChange_growsBy NotChange.fault fun hsel => absurd hsel (by simp [hp])
      exact hgrow.after rfl

theorem forwardStep_told (room : Nat) (e : Int) (d : Nat) (s : State) : ChangeTold room e s (forwardStep d s) :=
  .of_same (by rw [forwardStep_disc]) fun _ => forwardStep_growsBy NotChange.fault NotChange.fired d s

/-! ## Reports in an event with an occurrence -/

/-- A report after an occurrence has two records less room. -/
theorem reportChange_after_occur (old new : DiscState) (k : FaultKind) (port : Option Port) (ctx : FaultContext) (s : State) :
    ChangeReported 3 old new s.disc.lastE s (reportChange old new (occur k port ctx s)) := by
  have hreported := reportChange_reported old new (occur k port ctx s)
  rw [(occur_logOnly _ _ _ _).disc] at hreported
  exact ChangeReported_before hreported (occur_logOnly _ _ _ _).time (fun _ => occur_growsBy NotChange.fault k port ctx s)
    (occur_addsAtMost k port ctx s) (occur_raisesKept k port ctx s)

/-- A report before an occurrence. -/
theorem reportChange_before_occur (old new : DiscState) (k : FaultKind) (port : Option Port) (ctx : FaultContext) (s : State) :
    ChangeReported 1 old new s.disc.lastE s (occur k port ctx (reportChange old new s)) :=
  ChangeReported_later (reportChange_reported old new s) (occur_grow _ _ _ _) (occur_raisesKept _ _ _ _)

end Sys2Proof.Machine
end

section
/-! SUPPORT. The table of transitions with its reports (R22 to R29), misses and the reference loss (R20, R21), and REF CONFIGURE
(R17, R31, R32). -/

namespace Sys2Proof.Machine

open Sys2Proof.Safety

/-! ## What an UNLOCK and the handling of an edge report -/

theorem ChangeTold.mono {room room' : Nat} {e : Int} {s t : State} (h : ChangeTold room e s t) (hle : room ≤ room') :
    ChangeTold room' e s t := ⟨fun hne => ChangeReported_mono (h.changed hne) hle, h.unchanged⟩

/-- An UNLOCK: its occurrence and the report of the change in either order; no report where no ring selects DISCIPLINE (R27,
R29). -/
theorem unlock_cases (e : Int) (s : State) :
    let s1 := { s with disc := s.disc.unlocked }
    let s2 := { s1 with choices := s.choices + 1 }
    (disciplineSelectors s = [] ∧ unlock e s = occur .unlock none (.phaseError e) s1) ∨
      unlock e s = reportChange .locked .track (occur .unlock none (.phaseError e) s2) ∨
      unlock e s = occur .unlock none (.phaseError e) (reportChange .locked .track s2) := by
  unfold unlock
  dsimp only
  split
  · next hnone => exact .inl ⟨List.isEmpty_iff.1 hnone, rfl⟩
  · split
    · exact .inr (.inl rfl)
    · exact .inr (.inr rfl)

theorem unlock_growsBy {p : Port} {s : State} (h : (s.rings.get p).selDiscipline = false) (e : Int) :
    GrowsBy NotChange p s (unlock e s) := by
  have hnot : ∀ {b : RecordBody} {u : State}, GrowsBy NotChange p s u → (u.rings.get p).selDiscipline = true → NotChange b :=
    fun hgrow hsel => absurd (hgrow.selDiscipline.symm.trans hsel) (by simp [h])
  have hoccur : ∀ u : State, GrowsBy NotChange p u (occur .unlock none (.phaseError e) u) :=
    occur_growsBy NotChange.fault _ _ _
  rcases unlock_cases e s with ⟨-, hunlock⟩ | hunlock | hunlock <;> rw [hunlock]
  · exact (hoccur _).after rfl
  · have hfirst := (hoccur { s with disc := s.disc.unlocked, choices := s.choices + 1 }).after (s := s) rfl
    exact hfirst.trans (reportChange_growsBy NotChange.fault (hnot hfirst))
  · have hdrawn : GrowsBy NotChange p s { s with disc := s.disc.unlocked, choices := s.choices + 1 } := .of_rings rfl
    exact (hdrawn.trans (reportChange_growsBy NotChange.fault (hnot hdrawn))).trans (hoccur _)

theorem unlock_told {s : State} (h : s.disc.state = .locked) (e : Int) : ChangeTold 3 s.disc.lastE s (unlock e s) := by
  have hstate : (unlock e s).disc.state = .track := by rw [unlock_disc]; rfl
  refine ⟨fun _ => ?_, fun p hp => unlock_growsBy ?_ e⟩
  · rw [hstate, h]
    rcases unlock_cases e s with ⟨hnone, hunlock⟩ | hunlock | hunlock <;> rw [hunlock]
    · have hnot : ∀ p, ¬(s.rings.get p).selDiscipline = true := fun p hsel => by
        have hmem := mem_disciplineSelectors.2 hsel
        rw [hnone] at hmem
        cases hmem
      exact ⟨fun p hsel => absurd hsel (hnot p), fun p hsel => absurd hsel (hnot p)⟩
    · have hreported := reportChange_after_occur .locked .track .unlock none (.phaseError e)
        { s with disc := s.disc.unlocked, choices := s.choices + 1 }
      exact ⟨hreported.record, hreported.raise⟩
    · have hreported := reportChange_before_occur .locked .track .unlock none (.phaseError e)
        { s with disc := s.disc.unlocked, choices := s.choices + 1 }
      have hreported := ChangeReported_mono (room' := 3) hreported (by decide)
      exact ⟨hreported.record, hreported.raise⟩
  · rw [hstate, h] at hp
    exact hp.resolve_left (by decide)

theorem reportChange_count {j : FaultKind} (h : j ≠ .ringOverflow) (old new : DiscState) (s : State) :
    countOf (reportChange old new s) j = countOf s j :=
  (countOf_of_faults (raiseClassAll_faults _ _ _) j).trans (postAll_count h _ _ s)

theorem enterState_count {j : FaultKind} (h : j ≠ .ringOverflow) (new : DiscState) (s : State) :
    countOf (enterState new s) j = countOf s j := by
  unfold enterState
  dsimp only
  split
  · rfl
  · exact reportChange_count h _ _ _

theorem unlock_count (e : Int) (s : State) : countOf (unlock e s) .unlock = bumped (countOf s .unlock) := by
  rcases unlock_cases e s with ⟨-, hunlock⟩ | hunlock | hunlock <;> rw [hunlock]
  · rw [occur_count (by decide), if_pos rfl]
    rfl
  · rw [reportChange_count (by decide), occur_count (by decide), if_pos rfl]
    rfl
  · rw [occur_count (by decide), if_pos rfl, reportChange_count (by decide)]
    rfl

theorem edgeInSearch_told (s : State) : ChangeTold 1 s.disc.lastE s (edgeInSearch s) := by
  unfold edgeInSearch
  split
  · exact .of_disc _ _ rfl
  · exact (enterState_told .acquire (emptyWindow s)).after rfl

theorem edgeInHoldover_told (e : Int) (s : State) : ChangeTold 1 s.disc.lastE s (edgeInHoldover e s) := by
  unfold edgeInHoldover
  split
  · exact .of_disc _ _ rfl
  · exact (enterState_told _ (emptyWindow s)).after rfl

theorem edgeInAcquire_told (e : Int) (s : State) : ChangeTold 1 s.disc.lastE s (edgeInAcquire e s) := by
  unfold edgeInAcquire
  dsimp only
  repeat' split
  · exact .of_disc _ _ rfl
  · exact (forwardStep_told _ _ _ _).after rfl
  · exact (enterState_told .track { s with disc := s.disc.endWindow (s.disc.window ++ [e]) 3 8 }).after rfl
  · exact .of_disc _ _ rfl

theorem intoLongWindow_told (e : Int) (s : State) : ChangeTold 1 s.disc.lastE s (intoLongWindow e s) := by
  unfold intoLongWindow
  dsimp only
  repeat' split
  · exact .of_disc _ _ rfl
  · exact (enterState_told .locked { s with disc := s.disc.endWindow (s.disc.window ++ [e]) 15 64 }).after rfl
  · exact .of_disc _ _ rfl

theorem edgeInTrack_told (e : Int) (s : State) : ChangeTold 1 s.disc.lastE s (edgeInTrack e s) := by
  unfold edgeInTrack
  split
  · exact (enterState_told .acquire { s with disc := { s.disc with window := [] } }).after rfl
  · exact intoLongWindow_told e s

theorem edgeInLocked_told {s : State} (h : s.disc.state = .locked) (e : Int) :
    ChangeTold 3 s.disc.lastE s (edgeInLocked e s) := by
  unfold edgeInLocked
  split
  · exact unlock_told h e
  · exact (intoLongWindow_told e s).mono (by decide)

/-- The handling of an accepted edge reports a change of state and nothing else; the FAULT records of an UNLOCK may come first. -/
theorem handleEdge_told (s : State) :
    ChangeTold (if s.disc.state = .locked then 3 else 1) s.disc.lastE s (handleEdge s) := by
  unfold handleEdge
  cases hstate : s.disc.state with
  | freerun => exact .of_disc 1 _ rfl
  | search => exact edgeInSearch_told s
  | acquire => exact edgeInAcquire_told _ s
  | track => exact edgeInTrack_told _ s
  | locked => exact edgeInLocked_told hstate _
  | holdover => exact edgeInHoldover_told _ s

/-! ## The table of transitions -/

/-- In SEARCH and HOLDOVER an accepted edge moves the pair count alone (R22, R23). -/
theorem Discipline.afterEdge_of_pair (e : Int) {d : Discipline} (h : d.state = .search ∨ d.state = .holdover) :
    (d.afterEdge e).pairCount = (if d.pairCount = 0 then 1 else 0) ∧ (d.afterEdge e).f = d.f ∧ (d.afterEdge e).s = d.s := by
  have hpair : ∃ new, d.afterEdge e = d.countPair new := by
    unfold afterEdge
    rcases h with h | h <;> rw [h] <;> exact ⟨_, rfl⟩
  obtain ⟨new, hnew⟩ := hpair
  rw [hnew, countPair]
  split <;> exact ⟨rfl, rfl, rfl⟩

/-- Beyond LOCK_OUT an accepted edge in LOCKED is an UNLOCK (R27). -/
theorem Discipline.afterEdge_of_unlock {e : Int} {d : Discipline} (h : d.state = .locked)
    (hout : d.profile.lockOut < e.natAbs) : d.afterEdge e = d.unlocked := by
  unfold afterEdge
  rw [h]
  exact if_pos hout

/-- Only an UNLOCK sets unlock-seen flags. -/
theorem Discipline.afterEdge_unlockSeen (e : Int) {d : Discipline} (h : d.state ≠ .locked) :
    (d.afterEdge e).unlockSeen = d.unlockSeen := by
  have hpair : ∀ new, (d.countPair new).unlockSeen = d.unlockSeen := fun new => by unfold countPair; split <;> rfl
  unfold afterEdge
  cases hstate : d.state with
  | freerun => rfl
  | search => exact hpair _
  | holdover => exact hpair _
  | acquire =>
    dsimp only
    unfold intoAcquire
    repeat' split
    all_goals rfl
  | track =>
    dsimp only
    unfold intoLong
    repeat' split
    all_goals rfl
  | locked => exact absurd hstate h

theorem handleEdge_count_of_unlock {s : State} (h : s.disc.state = .locked)
    (hout : s.disc.profile.lockOut < s.disc.lastE.natAbs) :
    countOf (handleEdge s) .unlock = bumped (countOf s .unlock) := by
  have hunlock : handleEdge s = unlock s.disc.lastE s := by simp [handleEdge, edgeInLocked, h, hout]
  rw [hunlock, unlock_count]

/-- Settles O18: the unit by `Discipline.afterEdge`, and the reports by `handleEdge_told`, from the accepted edge on. -/
theorem acceptedEdgeFollowsTheTransitionTable : Obligations.AcceptedEdgeFollowsTheTransitionTable := by
  intro s hpowered hfree haccepted
  refine ⟨_, exec_activeEdge _ s, ?_⟩
  rw [activeEdge_accepted (takesEdge_of_edge hpowered hfree rfl) haccepted]
  have hdisc := handleEdge_disc (acceptEdge s)
  have htold := (handleEdge_told (acceptEdge s)).after (s := s) rfl
  refine ⟨?state, fun hpair => ?pair, fun hlocked hout => ?unlock, fun hlocked => ?seen, htold.changed,
    fun p hp => (htold.unchanged p hp).noChangeReported⟩
  case state => rw [hdisc, Discipline.afterEdge_state]; rfl
  case pair =>
    rw [hdisc]
    exact Discipline.afterEdge_of_pair _ (d := (acceptEdge s).disc) hpair
  case unlock =>
    have hunlocked : (handleEdge (acceptEdge s)).disc = (acceptEdge s).disc.unlocked :=
      hdisc.trans (Discipline.afterEdge_of_unlock hlocked hout)
    rw [hunlocked]
    exact ⟨fun p => Tab.get_fill _ p, rfl, rfl, rfl, handleEdge_count_of_unlock (s := acceptEdge s) hlocked hout⟩
  case seen =>
    rw [hdisc]
    exact Discipline.afterEdge_unlockSeen _ (d := (acceptEdge s).disc) hlocked

/-! ## Misses and the reference loss -/

theorem exec_miss (s : State) : exec .miss s = .next (miss s) := rfl

/-- A miss that is not the third counts and no more (R20). -/
theorem miss_of_few {s : State} (hdue : s.missDue = true) (h : s.disc.missCount ≠ 2) : miss s = countMiss s := by
  simp [miss, hdue, h]

/-- The third miss is a reference loss (R21). -/
theorem miss_of_third {s : State} (hdue : s.missDue = true) (h : s.disc.missCount = 2) : miss s = referenceLoss (countMiss s) := by
  simp [miss, hdue, h]

theorem LogOnly_with_disc {s t : State} (h : LogOnly s t) (d : Discipline) :
    LogOnly { s with disc := d } { t with disc := d } := ⟨by rw [h.eq]⟩

theorem enterState_logOnly (new : DiscState) (s : State) :
    LogOnly { s with disc := { s.disc with state := new } } (enterState new s) := by
  unfold enterState
  dsimp only
  split
  · exact .refl _
  · exact reportChange_logOnly _ _ _

theorem reportChange_captureKept (old new : DiscState) (s : State) : CaptureKept s (reportChange old new s) :=
  (postAll_captureKept _ _ s).trans (.of_faults (raiseClassAll_faults _ _ _))

theorem reportChange_grow (old new : DiscState) (s : State) : RecordsGrow s (reportChange old new s) :=
  (postAll_grow _ _ s).trans (.of_eq (raiseClassAll_rings _ _ _))

theorem enterState_captureKept (new : DiscState) (s : State) : CaptureKept s (enterState new s) := by
  unfold enterState
  dsimp only
  split
  · exact .of_faults rfl
  · exact reportChange_captureKept _ _ { s with disc := { s.disc with state := new } }

theorem enterState_grow (new : DiscState) (s : State) : RecordsGrow s (enterState new s) := by
  unfold enterState
  dsimp only
  split
  · exact .of_eq rfl
  · exact reportChange_grow _ _ { s with disc := { s.disc with state := new } }

theorem loseReference_told (s : State) : ChangeTold 1 s.disc.lastE s (loseReference s) :=
  (enterState_told s.disc.state.afterLoss { s with disc := { s.disc with s := 0 } }).after rfl

theorem loseReference_logOnly (s : State) :
    LogOnly { s with disc := { s.disc with state := s.disc.state.afterLoss, s := 0 } } (loseReference s) :=
  enterState_logOnly s.disc.state.afterLoss { s with disc := { s.disc with s := 0 } }

theorem loseReference_grow (s : State) : RecordsGrow s (loseReference s) :=
  enterState_grow s.disc.state.afterLoss { s with disc := { s.disc with s := 0 } }

theorem loseReference_captureKept (s : State) : CaptureKept s (loseReference s) :=
  enterState_captureKept s.disc.state.afterLoss { s with disc := { s.disc with s := 0 } }

theorem loseReference_count {j : FaultKind} (h : j ≠ .ringOverflow) (s : State) : countOf (loseReference s) j = countOf s j :=
  enterState_count h s.disc.state.afterLoss { s with disc := { s.disc with s := 0 } }

/-- A reference loss changes the unit and the log (R21). -/
theorem referenceLoss_logOnly (s : State) :
    LogOnly { s with disc := { s.disc with state := s.disc.state.afterLoss, s := 0 } } (referenceLoss s) := by
  have hoccur := occur_logOnly .refLost none (.missCount 3) s
  have hlose := loseReference_logOnly (occur .refLost none (.missCount 3) s)
  rw [hoccur.disc] at hlose
  exact (LogOnly_with_disc hoccur _).trans hlose

/-- Records that come before a change take from the room for its report. -/
theorem ChangeTold.before {room n : Nat} {e : Int} {s t u : State} (h : ChangeTold room e t u)
    (hstate : t.disc.state = s.disc.state) (htime : t.time = s.time) (hgrow : ∀ p, GrowsBy NotChange p s t)
    (hadds : AddsAtMost n s t) (hraises : RaisesKept s t) : ChangeTold (room + n) e s u := by
  obtain ⟨hchanged, hunchanged⟩ := h
  rw [hstate] at hchanged hunchanged
  exact ⟨fun hne => ChangeReported_before (hchanged hne) htime hgrow hadds hraises,
    fun p hp => (hgrow p).trans (hunchanged p (hp.imp_right (hgrow p).selDiscipline.trans))⟩

/-- The change of a reference loss is reported after the FAULT records of REF_LOST. -/
theorem referenceLoss_told (s : State) : ChangeTold 3 s.disc.lastE s (referenceLoss s) := by
  have hoccur := occur_logOnly .refLost none (.missCount 3) s
  have htold := loseReference_told (occur .refLost none (.missCount 3) s)
  rw [hoccur.disc] at htold
  exact htold.before (by rw [hoccur.disc]) hoccur.time (fun _ => occur_growsBy NotChange.fault _ _ _ s)
    (occur_addsAtMost _ _ _ s) (occur_raisesKept _ _ _ s)

theorem referenceLoss_count (s : State) : countOf (referenceLoss s) .refLost = bumped (countOf s .refLost) := by
  rw [referenceLoss, loseReference_count (by decide), occur_count (by decide), if_pos rfl]

/-- REF_LOST is captured where no capture record is held (R155). -/
theorem referenceLoss_captures {s : State} (hmasked : (s.faults.cells.get 0).masked = false) (hnone : s.faults.capture = none) :
    (referenceLoss s).faults.capture = some ⟨.refLost, s.time.ht, s.time.epoch, none, .missCount 3⟩ :=
  loseReference_captureKept _ _ (occur_captures (k := .refLost) hmasked hnone none (.missCount 3))

/-- The FAULT record of REF_LOST carries the LOCKED of the state before the loss (R21, R124). -/
theorem referenceLoss_appended {p : Port} {s : State} (hmasked : (s.faults.cells.get 0).masked = false)
    (hcount : (s.faults.cells.get 0).count = 0) (hsel : (s.rings.get p).selFault = true)
    (hroom : (s.rings.get p).records.length < 32) :
    Appended s (referenceLoss s) p (plainRecord s (.fault .refLost (s.faults.cells.get 0).severity)) :=
  Appended_later (occur_appended (k := .refLost) hmasked hcount hsel hroom none (.missCount 3))
    (loseReference_grow _)

theorem missDue_of_reached {s : State} (hpowered : s.powered = true) (hfree : s.disc.state ≠ .freerun)
    (hreached : s.disc.nextMiss ≤ s.time.rt) : s.missDue = true := by
  simp [State.missDue, hpowered, hfree, hreached]

/-- Settles O20: `countMiss` for the first misses, and the lemmas of `referenceLoss` from the counted state on for the third. -/
theorem missCountsAndTakesLoss : Obligations.MissCountsAndTakesLoss := by
  intro s hpowered hfree hreached
  have hdue := missDue_of_reached hpowered hfree hreached
  refine ⟨_, exec_miss s, ?_⟩
  by_cases hthird : s.disc.missCount = 2
  case pos =>
    have hlog := referenceLoss_logOnly (countMiss s)
    have htold := (referenceLoss_told (countMiss s)).after (s := s) rfl
    have hdisc := referenceLoss_disc (countMiss s)
    rw [miss_of_third hdue hthird]
    refine ⟨EdgeOnly.trans ⟨rfl⟩ (referenceLoss_edgeOnly _), hlog.time, hlog.watch, hlog.pins,
      congrArg Discipline.missCount hdisc, congrArg Discipline.window hdisc, congrArg Discipline.pairCount hdisc,
      (congrArg Discipline.f hdisc :), congrArg Discipline.nextMiss hdisc, (congrArg Discipline.lastE hdisc :), fun _ => ?loss,
      fun p hp => (htold.unchanged p hp).noChangeReported, fun h => absurd hthird h⟩
    exact ⟨(congrArg Discipline.state hdisc).trans (DiscState.afterLoss_eq _), congrArg Discipline.s hdisc,
      referenceLoss_count (countMiss s),
      fun hnone hmasked => referenceLoss_captures (s := countMiss s) hmasked hnone,
      fun p hmasked hcount hsel hroom => referenceLoss_appended (s := countMiss s) hmasked hcount hsel hroom,
      htold.changed⟩
  case neg =>
    rw [miss_of_few hdue hthird]
    refine ⟨⟨rfl⟩, rfl, rfl, rfl, rfl, rfl, rfl, rfl, rfl, rfl, fun h => absurd h hthird,
      fun p _ => GrowsBy.noChangeReported (.of_rings rfl), fun _ => ⟨rfl, rfl, ⟨rfl⟩, rfl, rfl, rfl⟩⟩

/-! ## REF CONFIGURE -/

theorem boolOfCode_bBool (b : Bool) : boolOfCode (bBool b).toNat = some b := by
  cases b <;> rfl

theorem edgeOfCode_edgeCode (ed : Edge) : edgeOfCode (b1 (edgeCode ed)).toNat = some ed := by
  cases ed <;> rfl

/-- The argument bytes of a REF CONFIGURE (R203). -/
def RefConfig.argBytes (c : RefConfig) : List Byte :=
  [bBool c.enabled] ++ beN 4 c.trefUs ++ [b1 (edgeCode c.edge), bBool c.stepEnable]

theorem RefConfig.length_argBytes (c : RefConfig) : c.argBytes.length = 7 := by simp [argBytes]

/-- REF CONFIGURE reads its argument bytes as R203 lays them out. -/
theorem readRefConfig_argBytes {c : RefConfig} (hlo : 1000 ≤ c.trefUs) (hhi : c.trefUs ≤ 1000000) :
    readRefConfig c.argBytes = some c := by
  have htref : fld c.argBytes 1 4 = c.trefUs := by
    simp only [RefConfig.argBytes, List.cons_append, List.nil_append, fld_cons_succ]
    rw [fld_append_left (by simp), fld_beN, Nat.mod_eq_of_lt (by omega)]
  have htail : ∀ k, fld c.argBytes (5 + k) 1 = fld [b1 (edgeCode c.edge), bBool c.stepEnable] k 1 := fun k => by
    rw [RefConfig.argBytes, fld_append_right (by simp)]
    simp
  have henabled : fld c.argBytes 0 1 = (bBool c.enabled).toNat := by
    rw [RefConfig.argBytes, List.append_assoc, List.singleton_append, fld_cons_zero]
  have hedge : fld c.argBytes 5 1 = (b1 (edgeCode c.edge)).toNat := (htail 0).trans (fld_cons_zero _ _)
  have hstep : fld c.argBytes 6 1 = (bBool c.stepEnable).toNat :=
    (htail 1).trans ((fld_cons_succ _ _ _ _).trans (fld_cons_zero _ _))
  simp [readRefConfig, htref, henabled, hedge, hstep, boolOfCode_bBool, edgeOfCode_edgeCode, hlo, hhi, -toNat_b1]

/-- A REF CONFIGURE that passes its checks (R31). -/
theorem refConfigure_passing {p : Port} {c : RefConfig} {s : State} (hholder : s.settings.holder = some p)
    (hlo : 1000 ≤ c.trefUs) (hhi : c.trefUs ≤ 1000000) :
    refConfigure p c.argBytes s = ok (refConfigured c s) [b1 (refConfigured c s).disc.state.code] := by
  simp [refConfigure, c.length_argBytes, State.holdsSettings, hholder, readRefConfig_argBytes hlo hhi]

theorem refConfigured_disc (c : RefConfig) (s : State) :
    (refConfigured c s).disc = { s.disc.reconfigured s.time.rt c with state := c.firstState } := by
  rw [refConfigured_eq, enterState_disc]

theorem refConfigured_logOnly (c : RefConfig) (s : State) :
    LogOnly { s with disc := (refConfigured c s).disc } (refConfigured c s) := by
  rw [refConfigured_disc, refConfigured_eq]
  exact enterState_logOnly c.firstState { s with disc := s.disc.reconfigured s.time.rt c }

theorem refConfigured_told (c : RefConfig) (s : State) :
    ChangeTold 1 (refConfigured c s).disc.lastE s (refConfigured c s) := by
  rw [refConfigured_disc, refConfigured_eq]
  exact (enterState_told c.firstState _).after (s.disc.reconfigured_spec s.time.rt c).state

/-- A REF CONFIGURE that stays in its state touches the unit alone. -/
theorem refConfigured_of_same {c : RefConfig} {s : State} (h : c.firstState = s.disc.state) :
    refConfigured c s = { s with disc := (refConfigured c s).disc } := by
  have hstate : (s.disc.reconfigured s.time.rt c).state = c.firstState :=
    (s.disc.reconfigured_spec s.time.rt c).state.trans h.symm
  rw [refConfigured_disc, refConfigured_eq, enterState]
  exact if_pos hstate

theorem Discipline.edgeNow_iff {rt : Nat} {d : Discipline} : d.edgeNow rt = true ↔ d.firstEdge = false ∧ d.refPoint = rt := by
  simp [edgeNow]

/-- The data byte of a REF CONFIGURE: the code of FREERUN or SEARCH (R201, R203). -/
theorem RefConfig.code_firstState (c : RefConfig) : b1 c.firstState.code = if c.enabled then 1#8 else 0#8 := by
  unfold firstState
  cases c.enabled <;> rfl

/-- Settles O21: the fields by `Discipline.reconfigured_spec`, and the report by `refConfigured_told`. -/
theorem refConfigureRestartsTheSearch : Obligations.RefConfigureRestartsTheSearch := by
  intro p c s htakes hholder hlo hhi
  have hspec := s.disc.reconfigured_spec s.time.rt c
  have hdisc := refConfigured_disc c s
  have htold := refConfigured_told c s
  have hstate : (refConfigured c s).disc.state = c.firstState := by rw [hdisc]
  have hpasses := refConfigure_passing hholder hlo hhi
  rw [hstate, c.code_firstState] at hpasses
  refine ⟨_, refConfigured c s, (refConfigured c s).disc, congrArg Host.Outcome.next (request_carried htakes hpasses), rfl,
    refConfigured_logOnly c s, ?_⟩
  have hsame : (refConfigured c s).disc.state = s.disc.state → (refConfigured c s).rings = s.rings ∧
      (refConfigured c s).vectors = s.vectors ∧ (refConfigured c s).faults = s.faults := fun h => by
    rw [refConfigured_of_same (hstate.symm.trans h)]
    exact ⟨rfl, rfl, rfl⟩
  have hlast : (refConfigured c s).disc.lastE =
      if s.disc.firstEdge = false ∧ s.disc.refPoint = s.time.rt then s.disc.lastEBefore else s.disc.lastE := by
    rw [hdisc]
    simpa only [Discipline.edgeNow_iff] using hspec.lastE
  refine ⟨?cfg, ?profile, ?window, ?pairCount, ?missCount, ?slew, ?f, hlast, ?unlockSeen, hstate, ?enabled, hsame, htold.changed,
    fun o ho => (htold.unchanged o (.inr ho)).noChangeReported⟩
  all_goals rw [hdisc]
  case cfg => exact hspec.cfg
  case profile => exact hspec.profile
  case window => exact hspec.window
  case pairCount => exact hspec.pairCount
  case missCount => exact hspec.missCount
  case slew => exact hspec.s
  case f => exact hspec.f
  case unlockSeen => exact hspec.unlockSeen
  case enabled => exact hspec.enabled

end Sys2Proof.Machine
end

section
/-! SUPPORT. The requests that set working values, and SUBSCRIBE: what each reads from its argument bytes, what it sets, and what it
refuses (R31, R33, R60, R75, R102, R172). -/

namespace Sys2Proof.Machine

open Sys2Proof.Safety

/-! ## The settings holder -/

theorem holdsSettings_of_holder {p : Port} {s : State} (h : s.settings.holder = some p) : s.holdsSettings p = true := by
  simp [State.holdsSettings, h]

/-! ## Codes -/

theorem pinOfCode_eq_some {n : Nat} {k : Pin} (h : pinOfCode n = some k) : n < 24 := by
  unfold pinOfCode at h
  split at h
  · assumption
  · cases h

theorem directionOfCode_eq_some {n : Nat} {dir : Direction} (h : Direction.ofCode n = some dir) : n < 3 := by
  unfold Direction.ofCode at h
  split at h
  · decide
  · decide
  · decide
  · cases h

theorem subModeOfCode_eq_some {n : Nat} {mode : SubMode} (h : SubMode.ofCode n = some mode) : n < 4 := by
  unfold SubMode.ofCode at h
  split at h
  · decide
  · decide
  · decide
  · decide
  · cases h

theorem pinOfCode_val (k : Pin) : pinOfCode (b1 k.val).toNat = some k := by
  have hk : k.val % 256 = k.val := Nat.mod_eq_of_lt (by omega)
  simp [pinOfCode, hk]

theorem subModeOfCode_code (mode : SubMode) : SubMode.ofCode (b1 mode.code).toNat = some mode := by
  cases mode <;> rfl

/-! ## REF CONFIGURE and PIN CONFIGURE: fields out of range -/

theorem readPinMap_bounds {args : List Byte} {m : Pin × PinMap} (h : readPinMap args = some m) :
    fld args 0 1 < 24 ∧ fld args 1 1 < 3 ∧ fld args 2 1 < 2 ∧ fld args 3 2 ≤ 1023 := by
  simp only [readPinMap, Option.bind_eq_bind, Option.bind_eq_some_iff] at h
  obtain ⟨pin, hpin, dir, hdir, safe, hsafe, h⟩ := h
  split at h
  · next hrange => exact ⟨pinOfCode_eq_some hpin, directionOfCode_eq_some hdir, boolOfCode_eq_some hsafe, hrange⟩
  · cases h

theorem refConfigure_outOfRange {p : Port} {args : List Byte} {s : State} (hholder : s.settings.holder = some p)
    (hlen : args.length = 7) (hout : 2 ≤ fld args 0 1 ∨ fld args 1 4 < 1000 ∨ 1000000 < fld args 1 4 ∨
      2 ≤ fld args 5 1 ∨ 2 ≤ fld args 6 1) : refConfigure p args s = refuse s .badArgument := by
  have hnone : readRefConfig args = none := by
    cases hread : readRefConfig args with
    | none => rfl
    | some c =>
      have := readRefConfig_eq_some hread
      omega
  simp [refConfigure, hlen, holdsSettings_of_holder hholder, hnone]

theorem pinConfigure_outOfRange {p : Port} {args : List Byte} {s : State} (hholder : s.settings.holder = some p)
    (hlen : args.length = 5) (hout : 24 ≤ fld args 0 1 ∨ 3 ≤ fld args 1 1 ∨ 2 ≤ fld args 2 1 ∨ 1023 < fld args 3 2)
    (level : Level) : pinConfigure p args level s = refuse s .badArgument := by
  have hnone : readPinMap args = none := by
    cases hread : readPinMap args with
    | none => rfl
    | some m =>
      have := readPinMap_bounds hread
      omega
  simp [pinConfigure, hlen, holdsSettings_of_holder hholder, hnone]

/-! ## DISCIPLINE PROFILE -/

theorem Profile.inRange_iff {q : Profile} : q.inRange = true ↔
    (1 ≤ q.lockIn ∧ q.lockIn ≤ 100000000) ∧ (1 ≤ q.lockOut ∧ q.lockOut ≤ 100000000) ∧
      (1 ≤ q.trkIn ∧ q.trkIn ≤ 100000000) ∧ (1 ≤ q.acqIn ∧ q.acqIn ≤ 100000000) ∧
      (1 ≤ q.stepTh ∧ q.stepTh ≤ 100000000) := by
  simp [Profile.inRange]

theorem Profile.ordered_iff {q : Profile} : q.ordered = true ↔
    q.lockIn < q.lockOut ∧ q.lockOut ≤ q.trkIn ∧ q.trkIn < q.acqIn ∧ q.acqIn ≤ q.stepTh := by
  simp [Profile.ordered, and_assoc]

theorem Profile.length_bytes (q : Profile) : q.bytes.length = 20 := by simp [bytes]

/-- The five thresholds read from their bytes (R203). -/
theorem profileAt_bytes {q : Profile} (h : q.inRange = true) : profileAt q.bytes 0 = q := by
  obtain ⟨⟨-, hlockIn⟩, ⟨-, hlockOut⟩, ⟨-, htrkIn⟩, ⟨-, hacqIn⟩, ⟨-, hstepTh⟩⟩ := Profile.inRange_iff.1 h
  have hfields : profileAt q.bytes 0 = ⟨q.lockIn % 2 ^ 32, q.lockOut % 2 ^ 32, q.trkIn % 2 ^ 32, q.acqIn % 2 ^ 32,
      q.stepTh % 2 ^ 32⟩ := by
    simp [profileAt, Profile.bytes, fld_append_left, fld_append_right]
  rw [hfields, Nat.mod_eq_of_lt (by omega), Nat.mod_eq_of_lt (by omega), Nat.mod_eq_of_lt (by omega),
    Nat.mod_eq_of_lt (by omega), Nat.mod_eq_of_lt (by omega)]

theorem disciplineProfile_passing {p : Port} {q : Profile} {s : State} (hholder : s.settings.holder = some p)
    (hrange : q.inRange = true) (hordered : q.ordered = true) :
    disciplineProfile p q.bytes s = ok { s with disc := { s.disc with profile := q } } [] := by
  simp [disciplineProfile, q.length_bytes, holdsSettings_of_holder hholder, profileAt_bytes hrange, hrange, hordered]

theorem disciplineProfile_outOfRange {p : Port} {args : List Byte} {s : State} (hholder : s.settings.holder = some p)
    (hlen : args.length = 20) (hout : (∃ k, k < 5 ∧ (fld args (4 * k) 4 < 1 ∨ 100000000 < fld args (4 * k) 4)) ∨
      fld args 4 4 ≤ fld args 0 4 ∨ fld args 8 4 < fld args 4 4 ∨ fld args 12 4 ≤ fld args 8 4 ∨
      fld args 16 4 < fld args 12 4) : disciplineProfile p args s = refuse s .badArgument := by
  have hnot : ¬((profileAt args 0).inRange && (profileAt args 0).ordered) = true := by
    rw [Bool.and_eq_true, Profile.inRange_iff, Profile.ordered_iff]
    simp only [profileAt, Nat.zero_add]
    rcases hout with ⟨k, hk, hout⟩ | hout
    · interval_cases k <;> simp only [Nat.mul_zero, Nat.reduceMul] at hout <;> omega
    · omega
  simp [disciplineProfile, hlen, holdsSettings_of_holder hholder, Bool.eq_false_of_not_eq_true hnot]

/-! ## SCHEDULE CONFIGURE -/

theorem scheduleConfigure_passing {p : Port} {v : Nat} {s : State} (hholder : s.settings.holder = some p) (hv : v ≤ 1000000) :
    scheduleConfigure p (beN 4 v) s = ok { s with sched := { s.sched with lateThreshold := v } } (beN 4 v) := by
  have hread : fld (beN 4 v) 0 4 = v := by rw [fld_beN, Nat.mod_eq_of_lt (by omega)]
  simp only [scheduleConfigure, hread, length_beN, holdsSettings_of_holder hholder]
  simp [Nat.not_lt.2 hv]

theorem scheduleConfigure_outOfRange {p : Port} {args : List Byte} {s : State} (hholder : s.settings.holder = some p)
    (hlen : args.length = 4) (hout : 1000000 < be args) : scheduleConfigure p args s = refuse s .badArgument := by
  simp [scheduleConfigure, hlen, holdsSettings_of_holder hholder, fld_whole' hlen, hout]

/-! ## PORT LIMITS SET -/

theorem quotaSum_eq (q : Tab 4 Nat) : quotaSum q = q.get 0 + q.get 1 + q.get 2 + q.get 3 := by
  simp [quotaSum, allPorts, Nat.add_assoc]

/-- A sum of 64 or less bounds each quota (R172). -/
theorem quotasInRange_iff {q : Tab 4 Nat} : quotasInRange q = true ↔ q.get 0 + q.get 1 + q.get 2 + q.get 3 ≤ 64 := by
  simp only [quotasInRange, quotaSum_eq, allPorts, List.all_cons, List.all_nil, Bool.and_eq_true, decide_eq_true_eq, and_true]
  omega

theorem leaseInRange_iff {ms : Nat} : leaseInRange ms = true ↔ ms = 0 ∨ 10 ≤ ms ∧ ms ≤ 60000 := by
  simp [leaseInRange]

theorem leasesInRange_iff {q : Tab 4 Nat} : leasesInRange q = true ↔
    ∀ o, q.get o = 0 ∨ 10 ≤ q.get o ∧ q.get o ≤ 60000 := by
  simp [leasesInRange, leaseInRange_iff, mem_allPorts]

/-- The four quotas of a PORT LIMITS SET (R203). -/
def quotasAt (args : List Byte) : Tab 4 Nat := .build fun q => fld args q.val 1

/-- The four default lease periods of a PORT LIMITS SET (R203). -/
def leasesAt (args : List Byte) : Tab 4 Nat := .build fun q => fld args (4 + 2 * q.val) 2

/-- The checks of R172 behind the length and the claim, in order. -/
theorem portLimitsSet_of_holder {p : Port} {args : List Byte} {s : State} (hholder : s.settings.holder = some p)
    (hlen : args.length = 12) : portLimitsSet p args s =
      if !(quotasInRange (quotasAt args) && leasesInRange (leasesAt args)) then refuse s .badArgument
      else if s.settings.frozen then refuse s .frozen
      else if allPorts.any (fun q => decide ((quotasAt args).get q < s.sched.holdings q)) then refuse s .inUse
      else
        ok { s with
          settings := { s.settings with quotas := quotasAt args }
          ports := .build fun q => { s.ports.get q with defaultLeaseMs := (leasesAt args).get q } } args := by
  unfold portLimitsSet
  dsimp only
  rw [if_neg (not_not_intro hlen), if_neg (by simp [holdsSettings_of_holder hholder])]
  rfl

/-- The range check of R172. -/
theorem limitsInRange_iff {args : List Byte} : (quotasInRange (quotasAt args) && leasesInRange (leasesAt args)) = true ↔
    ¬(64 < fld args 0 1 + fld args 1 1 + fld args 2 1 + fld args 3 1 ∨
      ∃ o : Port, fld args (4 + 2 * o.val) 2 ≠ 0 ∧
        (fld args (4 + 2 * o.val) 2 < 10 ∨ 60000 < fld args (4 + 2 * o.val) 2)) := by
  have hquotas : quotasInRange (quotasAt args) = true ↔ fld args 0 1 + fld args 1 1 + fld args 2 1 + fld args 3 1 ≤ 64 := by
    rw [quotasInRange_iff]
    simp [quotasAt]
  have hleases : leasesInRange (leasesAt args) = true ↔ ∀ o : Port, fld args (4 + 2 * o.val) 2 = 0 ∨
      10 ≤ fld args (4 + 2 * o.val) 2 ∧ fld args (4 + 2 * o.val) 2 ≤ 60000 := by
    rw [leasesInRange_iff]
    simp [leasesAt]
  rw [Bool.and_eq_true, hquotas, hleases, not_or, not_exists, Nat.not_lt]
  refine and_congr_right fun _ => forall_congr' fun o => ?_
  omega

/-- The argument bytes of a PORT LIMITS SET (R203). -/
def limitBytes (quotas leases : Tab 4 Nat) : List Byte :=
  allPorts.map (fun o => b1 (quotas.get o)) ++ allPorts.flatMap (fun o => beN 2 (leases.get o))

theorem length_limitBytes (quotas leases : Tab 4 Nat) : (limitBytes quotas leases).length = 12 := by
  simp [limitBytes, allPorts]

theorem quotasAt_limitBytes {quotas : Tab 4 Nat} (h : quotasInRange quotas = true) (leases : Tab 4 Nat) :
    quotasAt (limitBytes quotas leases) = quotas := by
  have hsum := quotasInRange_iff.1 h
  refine Tab.ext_get fun o => ?_
  rw [quotasAt, Tab.get_build]
  fin_cases o <;> simp [limitBytes, allPorts] <;> omega

theorem leasesAt_limitBytes {leases : Tab 4 Nat} (h : leasesInRange leases = true) (quotas : Tab 4 Nat) :
    leasesAt (limitBytes quotas leases) = leases := by
  refine Tab.ext_get fun o => ?_
  have hrange := leasesInRange_iff.1 h o
  have hmod : leases.get o % 256 ^ 2 = leases.get o := Nat.mod_eq_of_lt (by omega)
  rw [leasesAt, Tab.get_build, ← hmod]
  fin_cases o <;> simp [limitBytes, allPorts, fld_append_left, fld_append_right]

/-- A PORT LIMITS SET that passes its checks (R172). -/
theorem portLimitsSet_passing {p : Port} {s : State} (hholder : s.settings.holder = some p) (hfrozen : s.settings.frozen = false)
    {quotas leases : Tab 4 Nat} (hquotas : quotasInRange quotas = true) (hleases : leasesInRange leases = true)
    (hfits : ∀ o, s.sched.holdings o ≤ quotas.get o) :
    portLimitsSet p (limitBytes quotas leases) s = ok { s with
      settings := { s.settings with quotas := quotas }
      ports := .build fun o => { s.ports.get o with defaultLeaseMs := leases.get o } } (limitBytes quotas leases) := by
  have hin : ¬(allPorts.any fun o => decide (quotas.get o < s.sched.holdings o)) = true := by
    simpa using fun o _ => hfits o
  rw [portLimitsSet_of_holder hholder (length_limitBytes _ _), quotasAt_limitBytes hquotas, leasesAt_limitBytes hleases,
    if_neg (by simp [hquotas, hleases]), if_neg (by simp [hfrozen]), if_neg hin]

theorem portLimitsSet_outOfRange {p : Port} {args : List Byte} {s : State} (hholder : s.settings.holder = some p)
    (hlen : args.length = 12) (hout : ¬(quotasInRange (quotasAt args) && leasesInRange (leasesAt args)) = true) :
    portLimitsSet p args s = refuse s .badArgument := by
  rw [portLimitsSet_of_holder hholder hlen, if_pos (by rw [Bool.eq_false_of_not_eq_true hout]; rfl)]

theorem portLimitsSet_frozen {p : Port} {args : List Byte} {s : State} (hholder : s.settings.holder = some p)
    (hlen : args.length = 12) (hrange : (quotasInRange (quotasAt args) && leasesInRange (leasesAt args)) = true)
    (hfrozen : s.settings.frozen = true) : portLimitsSet p args s = refuse s .frozen := by
  rw [portLimitsSet_of_holder hholder hlen, if_neg (by simp [hrange]), if_pos hfrozen]

theorem portLimitsSet_inUse {p : Port} {args : List Byte} {s : State} (hholder : s.settings.holder = some p)
    (hlen : args.length = 12) (hrange : (quotasInRange (quotasAt args) && leasesInRange (leasesAt args)) = true)
    (hfrozen : s.settings.frozen = false) {o : Port} (hover : fld args o.val 1 < s.sched.holdings o) :
    portLimitsSet p args s = refuse s .inUse := by
  have hany : (allPorts.any fun q => decide ((quotasAt args).get q < s.sched.holdings q)) = true :=
    List.any_eq_true.2 ⟨o, mem_allPorts o, by simpa [quotasAt] using hover⟩
  rw [portLimitsSet_of_holder hholder hlen, if_neg (by simp [hrange]), if_neg (by simp [hfrozen]), if_pos hany]

/-! ## SUBSCRIBE -/

theorem subscribe_bytes (p : Port) (k : Pin) (mode : SubMode) (s : State) :
    subscribe p [b1 k.val, b1 mode.code] s =
      if !s.isIn k then refuse s .wrongDirection
      else ok { s with subs := s.subs.set p ((s.subs.get p).set k mode) } [b1 k.val, b1 mode.code] := by
  have hpin : pinOfCode (fld [b1 k.val, b1 mode.code] 0 1) = some k := by rw [fld_cons_zero, pinOfCode_val]
  have hmode : SubMode.ofCode (fld [b1 k.val, b1 mode.code] 1 1) = some mode := by
    rw [fld_cons_succ, fld_cons_zero, subModeOfCode_code]
  rw [subscribe, hpin, hmode]
  rfl

theorem isIn_iff {k : Pin} {s : State} : s.isIn k = true ↔ (s.pins.get k).map.dir = .input := by
  simp [State.isIn]

theorem subscribe_passing {p : Port} {k : Pin} {s : State} (h : (s.pins.get k).map.dir = .input) (mode : SubMode) :
    subscribe p [b1 k.val, b1 mode.code] s =
      ok { s with subs := s.subs.set p ((s.subs.get p).set k mode) } [b1 k.val, b1 mode.code] := by
  rw [subscribe_bytes, if_neg (by simp [isIn_iff.2 h])]

theorem subscribe_wrongDirection {p : Port} {k : Pin} {s : State} (h : (s.pins.get k).map.dir ≠ .input) (mode : SubMode) :
    subscribe p [b1 k.val, b1 mode.code] s = refuse s .wrongDirection := by
  rw [subscribe_bytes, if_pos (by simpa using mt isIn_iff.1 h)]

theorem subscribe_outOfRange {p : Port} {args : List Byte} (hlen : args.length = 2)
    (hout : 24 ≤ fld args 0 1 ∨ 4 ≤ fld args 1 1) (s : State) : subscribe p args s = refuse s .badArgument := by
  unfold subscribe
  rw [if_neg (not_not_intro hlen)]
  split
  · next hpin hmode =>
    have := pinOfCode_eq_some hpin
    have := subModeOfCode_eq_some hmode
    omega
  · rfl
  · rfl

/-- Settles O35: each request's rule by its passing branch or the refusal that is asked for, in the request's frame. -/
theorem valueRequestsSetTheirValue : Obligations.ValueRequestsSetTheirValue := by
  intro p s htakes
  have carried : ∀ {code : Byte} {rule : State → Reply} {u : State} {data : List Byte}, rule s = ok u data →
      Host.Outcome.next (request p code s rule) = (.next (answer p ⟨.ok, code, data⟩ u) : Host.Outcome State Fault Refusal) :=
    fun hrule => congrArg _ (request_carried htakes hrule)
  have refused : ∀ {code : Byte} {rule : State → Reply} {st : Status}, rule s = refuse s st →
      Host.Outcome.next (request p code s rule) = (.next (answer p ⟨st, code, []⟩ s) : Host.Outcome State Fault Refusal) :=
    fun hrule => congrArg _ (request_refused htakes hrule)
  refine ⟨fun hholder q hrange hlock htrk hacq hstep => ?profile, fun hholder v hv => ?lateThreshold,
    fun hholder hfrozen quotas leases hsum hleases hfits => ?limits,
    fun k mode => ⟨fun hin => ?subscribe, fun hin => ?direction⟩,
    fun args hlen hout => ?mode, fun hholder args => ⟨fun hlen hout => ?refOut, fun hlen hout => ?profileOut,
      fun hlen hout => ?lateOut, fun level hlen hout => ?pinOut, fun hlen outOfRange hiff => ?limitsOut⟩⟩
  case profile => exact carried (disciplineProfile_passing hholder hrange (Profile.ordered_iff.2 ⟨hlock, htrk, hacq, hstep⟩))
  case lateThreshold => exact carried (scheduleConfigure_passing hholder hv)
  case limits =>
    have hquotas := quotasInRange_iff.2 hsum
    exact ⟨_, rfl, carried (portLimitsSet_passing hholder hfrozen hquotas (leasesInRange_iff.2 hleases) hfits)⟩
  case subscribe => exact carried (subscribe_passing hin mode)
  case direction => exact refused (subscribe_wrongDirection hin mode)
  case mode => exact refused (subscribe_outOfRange hlen hout s)
  case refOut => exact refused (refConfigure_outOfRange hholder hlen hout)
  case profileOut => exact refused (disciplineProfile_outOfRange hholder hlen hout)
  case lateOut => exact refused (scheduleConfigure_outOfRange hholder hlen hout)
  case pinOut => exact refused (pinConfigure_outOfRange hholder hlen hout level)
  case limitsOut =>
    have hrange : (quotasInRange (quotasAt args) && leasesInRange (leasesAt args)) = true ↔ ¬outOfRange :=
      limitsInRange_iff.trans (not_congr hiff.symm)
    refine ⟨fun hout => ?_, fun hin hfrozen => ?_, fun hin hfrozen hover => ?_⟩
    · exact refused (portLimitsSet_outOfRange hholder hlen fun h => hrange.1 h hout)
    · exact refused (portLimitsSet_frozen hholder hlen (hrange.2 hin) hfrozen)
    · obtain ⟨o, hover⟩ := hover
      exact refused (portLimitsSet_inUse hholder hlen (hrange.2 hin) hfrozen hover)

end Sys2Proof.Machine
end

section
/-! SUPPORT. What every part of the schedule keeps: no live entry but an admitted one, its lasting fields, the due order of the armed
list (R37, R44, R52, R114), and which pins an expiry drives (R47). -/

namespace Sys2Proof.Machine

open Sys2Proof.Safety

/-! ## The fields that an entry keeps for its life -/

/-- The kind without the counts that a continuation takes down (R52, R114). -/
def EntryKind.lasting : EntryKind → EntryKind
  | .timed none => .timed none
  | .timed (some q) => .timed (some { q with repeats := 0 })
  | .edge pin ed offset _ => .edge pin ed offset 0

/-- The fields that an entry keeps from its admission to its removal (R37). -/
def Entry.lasting (e : Entry) : Entry := { e with kind := e.kind.lasting }

@[simp] theorem Entry.lasting_slot (e : Entry) : e.lasting.slot = e.slot := rfl

@[simp] theorem Entry.lasting_owner (e : Entry) : e.lasting.owner = e.owner := rfl

@[simp] theorem Entry.lasting_tag (e : Entry) : e.lasting.tag = e.tag := rfl

@[simp] theorem Entry.lasting_action (e : Entry) : e.lasting.action = e.action := rfl

@[simp] theorem Entry.lasting_inPin (e : Entry) : e.lasting.inPin = e.inPin := by
  rcases e with ⟨slot, owner, tag, action, (_ | q) | ⟨pin, ed, offset, rearm⟩, report, vector⟩ <;> rfl

/-- The lasting fields of the live entries. -/
def Schedule.lasting (c : Schedule) : List Entry := c.live.map Entry.lasting

theorem Schedule.lasting_eq (c : Schedule) :
    c.lasting = c.armed.map (·.entry.lasting) ++ c.waiting.map Entry.lasting := by
  simp [lasting, live]

theorem armEntry_lasting (a : Armed) (s : State) :
    (armEntry a s).sched.lasting.Perm (a.entry.lasting :: s.sched.lasting) := by
  rw [Schedule.lasting_eq, Schedule.lasting_eq, ← List.cons_append]
  exact ((insertArmed_perm a s.sched.armed).map (·.entry.lasting)).append_right _

theorem waitEntry_lasting (e : Entry) (s : State) :
    (waitEntry e s).sched.lasting.Perm (e.lasting :: s.sched.lasting) := by
  have hwaiting : (waitEntry e s).sched.waiting = s.sched.waiting ++ [e] := rfl
  rw [Schedule.lasting_eq, Schedule.lasting_eq, hwaiting, List.map_append, ← List.append_assoc]
  exact List.perm_append_singleton _ _

/-- A continuation takes down a count of the entry's kind and nothing else (R52, R114). -/
theorem Armed.continuation_lasting {a : Armed} {ht due : Nat} {kind : EntryKind}
    (h : (a.continuation ht).after = .again due kind ∨ (a.continuation ht).after = .waits kind) :
    kind.lasting = a.entry.kind.lasting := by
  unfold Armed.continuation at h
  rcases hkind : a.entry.kind with (_ | q) | ⟨pin, ed, offset, rearm⟩
  · simp [hkind] at h
  · simp only [hkind, catchUp] at h
    split_ifs at h <;> simp at h <;> simp [← h.2, EntryKind.lasting]
  · simp only [hkind, rearmed] at h
    split_ifs at h <;> simp at h <;> simp [← h, EntryKind.lasting]

/-! ## No entry joins the schedule -/

/-- From `s` to `t` no entry joins the schedule, the entries that stay keep their lasting fields, and the due order is kept. -/
structure EntriesLast (s t : State) : Prop where
  lasting : t.sched.lasting.Subperm s.sched.lasting
  sorted : ArmedSorted s → ArmedSorted t

theorem EntriesLast.refl (s : State) : EntriesLast s s := ⟨.refl _, id⟩

theorem EntriesLast.trans {s t u : State} (h : EntriesLast s t) (k : EntriesLast t u) : EntriesLast s u :=
  ⟨k.lasting.trans h.lasting, k.sorted ∘ h.sorted⟩

theorem EntriesLast.of_sublist {s t : State} (harmed : t.sched.armed.Sublist s.sched.armed)
    (hwaiting : t.sched.waiting.Sublist s.sched.waiting) : EntriesLast s t := by
  refine ⟨?_, List.Pairwise.sublist harmed⟩
  rw [Schedule.lasting_eq, Schedule.lasting_eq]
  exact ((harmed.map _).append (hwaiting.map _)).subperm

theorem EntriesLast.of_eq {s t : State} (harmed : t.sched.armed = s.sched.armed) (hwaiting : t.sched.waiting = s.sched.waiting) :
    EntriesLast s t :=
  .of_sublist (by rw [harmed]) (by rw [hwaiting])

theorem EntriesLast.of_logOnly {s t : State} (h : LogOnly s t) : EntriesLast s t := .of_eq h.armed h.waiting

/-- Every live entry of `t` has its lasting fields from one of `s`. -/
theorem EntriesLast.exists_live {s t : State} (h : EntriesLast s t) {e : Entry} (he : e ∈ t.sched.live) :
    ∃ e' ∈ s.sched.live, e'.lasting = e.lasting :=
  List.mem_map.1 (h.lasting.subset (List.mem_map_of_mem he))

theorem EntriesLast.live_nil {s t : State} (h : EntriesLast s t) (hnil : s.sched.live = []) : t.sched.live = [] := by
  have hsub := h.lasting
  rw [Schedule.lasting, Schedule.lasting, hnil, List.map_nil, List.subperm_nil] at hsub
  exact List.map_eq_nil_iff.1 hsub

/-- A positive period, as a property of an entry's lasting fields. -/
theorem period_of_lasting {e e' : Entry} (h : e'.lasting = e.lasting) {q : Periodic} (hkind : e.kind = .timed (some q)) :
    ∃ q', e'.kind = .timed (some q') ∧ q'.period = q.period := by
  have hk : e'.kind.lasting = e.kind.lasting := congrArg Entry.kind h
  rw [hkind] at hk
  rcases hkind' : e'.kind with (_ | q') | ⟨pin, ed, offset, rearm⟩
  · simp [hkind', EntryKind.lasting] at hk
  · exact ⟨q', rfl, by simpa [hkind', EntryKind.lasting] using hk⟩
  · simp [hkind', EntryKind.lasting] at hk

theorem EntriesLast.periodsPositive {s t : State} (h : EntriesLast s t) (hpos : PeriodsPositive s) : PeriodsPositive t := by
  intro e he q hkind
  obtain ⟨e', he', hlasting⟩ := h.exists_live he
  obtain ⟨q', hkind', hperiod⟩ := period_of_lasting hlasting hkind
  exact hperiod ▸ hpos e' he' q' hkind'

/-! ## Expiries -/

theorem insertBack_sorted {back : Option Armed} {l : List Armed} (h : l.Pairwise fun b c => b.due ≤ c.due) :
    (insertBack back l).Pairwise fun b c => b.due ≤ c.due := by
  cases back with
  | none => exact h
  | some b => exact insertArmed_sorted b h

/-- A continuation puts the entry back or removes it. -/
theorem continueEntry_lasting (a : Armed) (ht : Nat) (s : State) :
    (continueEntry a (a.continuation ht) s).sched.lasting.Subperm (a.entry.lasting :: s.sched.lasting) := by
  unfold continueEntry
  split
  · exact (List.sublist_cons_self _ _).subperm
  · next due kind hafter =>
    have hkind : ({ a.entry with kind := kind } : Entry).lasting = a.entry.lasting := by
      simp [Entry.lasting, Armed.continuation_lasting (.inl hafter)]
    exact hkind ▸ (armEntry_lasting _ s).subperm
  · next kind hafter =>
    have hkind : ({ a.entry with kind := kind } : Entry).lasting = a.entry.lasting := by
      simp [Entry.lasting, Armed.continuation_lasting (due := 0) (.inr hafter)]
    exact hkind ▸ (waitEntry_lasting _ s).subperm

/-- What a firing does behind its drive and its continuation touches no entry. -/
theorem completeFiring_logOnly (a : Armed) (n : Nat) (s : State) :
    LogOnly (continueEntry a (a.continuation s.time.ht) s) (completeFiring a n s) :=
  ((firedRecord_logOnly a n _ _).trans (entryRaise_logOnly a _)).trans (lateFire_logOnly a n _)

theorem logOnly_lasting {s t : State} (h : LogOnly s t) : t.sched.lasting = s.sched.lasting := by
  rw [Schedule.lasting_eq, Schedule.lasting_eq, h.armed, h.waiting]

/-- An expired entry is back in the schedule at most once, with its lasting fields (R48, R52, R114). -/
theorem expireOne_lasting (a : Armed) (n : Nat) (s : State) :
    (expireOne a n s).sched.lasting.Subperm (a.entry.lasting :: s.sched.lasting) := by
  have hdrive : (expiryDrive a s).sched = s.sched := expiryDrive_sched a s
  cases h : a.isLead with
  | true =>
    obtain ⟨k, level, width, hact, hphase⟩ := Armed.isLead_iff.1 h
    rw [expireOne_of_lead hact hphase, logOnly_lasting (lateFire_logOnly a n _), ← hdrive]
    exact (armEntry_lasting _ _).subperm
  | false =>
    rw [expireOne_of_not_lead h, logOnly_lasting (completeFiring_logOnly a n _), ← hdrive]
    exact continueEntry_lasting a _ _

theorem expireOne_armed (a : Armed) (n : Nat) (s : State) :
    ∃ back, (expireOne a n s).sched.armed = insertBack back s.sched.armed := by
  cases h : a.isLead with
  | true =>
    obtain ⟨k, level, width, hact, hphase⟩ := Armed.isLead_iff.1 h
    refine ⟨some ⟨a.entry, min (a.due + width) maxTime, .trail n⟩, ?_⟩
    rw [expireOne_of_lead hact hphase, (lateFire_logOnly a n _).armed, ← expiryDrive_sched a s]
    rfl
  | false =>
    refine ⟨a.nextArmed (expiryDrive a s).time.ht, ?_⟩
    rw [expireOne_of_not_lead h, completeFiring_armed, expiryDrive_sched]

/-- The expiry of the head of the armed list. -/
theorem expireOne_entriesLast {a : Armed} {rest : List Armed} {s : State} (harmed : s.sched.armed = a :: rest) (n : Nat) :
    EntriesLast s (expireOne a n { s with sched := { s.sched with armed := rest } }) := by
  refine ⟨?_, fun hsorted => ?_⟩
  · have hcons : s.sched.lasting = a.entry.lasting :: Schedule.lasting { s.sched with armed := rest } := by
      rw [Schedule.lasting_eq, Schedule.lasting_eq, harmed]
      rfl
    rw [hcons]
    exact expireOne_lasting a n _
  · obtain ⟨back, hback⟩ := expireOne_armed a n { s with sched := { s.sched with armed := rest } }
    unfold ArmedSorted at hsorted ⊢
    rw [harmed] at hsorted
    rw [hback]
    exact insertBack_sorted (List.pairwise_cons.1 hsorted).2

theorem takeDue_entriesLast (late : Bool) (s : State) : EntriesLast s (takeDue late s).1 := by
  unfold takeDue
  generalize 2 * s.sched.armed.length = n
  induction n generalizing s with
  | zero => exact .refl s
  | succ n ih =>
    unfold expireDue
    split
    · exact .refl s
    · next a rest harmed =>
      split
      · exact (expireOne_entriesLast harmed _).trans (ih _)
      · exact .refl s

/-! ## Edges and forward steps -/

theorem takeFirst_perm {q : Entry → Bool} {l rest : List Entry} {e : Entry} (h : takeFirst q l = some (e, rest)) :
    l.Perm (e :: rest) := by
  induction l generalizing rest with
  | nil => simp [takeFirst] at h
  | cons x l ih =>
    unfold takeFirst at h
    split at h
    · cases h
      exact .refl _
    · split at h
      · cases h
      · next htail =>
        cases h
        exact ((ih htail).cons x).trans (.swap _ _ _)

/-- An arming moves an entry from the waiting queue to the armed list (R111). -/
theorem armOldest_entriesLast (pin : Pin) (ed : Edge) (stamp : Nat) (o : Port) (s : State) :
    EntriesLast s (armOldest pin ed stamp o s) := by
  unfold armOldest
  split
  · exact .refl s
  · next e rest htake =>
    refine ⟨?_, fun hsorted => insertArmed_sorted _ hsorted⟩
    have hmoved : (e.lasting :: Schedule.lasting { s.sched with waiting := rest }).Perm s.sched.lasting := by
      rw [Schedule.lasting_eq, Schedule.lasting_eq]
      exact List.perm_middle.symm.trans (((takeFirst_perm htake).map Entry.lasting).symm.append_left _)
    exact ((armEntry_lasting _ _).trans hmoved).subperm

theorem armQueues_entriesLast (pin : Pin) (ed : Edge) (stamp : Nat) (os : List Port) (s : State) :
    EntriesLast s (armQueues pin ed stamp os s) := by
  induction os generalizing s with
  | nil => exact .refl s
  | cons o os ih => exact (armOldest_entriesLast pin ed stamp o s).trans (ih _)

theorem edgeArrival_entriesLast (pin : Pin) (ed : Edge) (stamp : Nat) (s : State) :
    EntriesLast s (edgeArrival pin ed stamp s) :=
  (armQueues_entriesLast pin ed stamp _ s).trans (takeDue_entriesLast true _)

theorem handOn_entriesLast (pin : Pin) (ed : Edge) (ht : Nat) (epoch : BitVec 16) (locked late : Bool) (s : State) :
    EntriesLast s (handOn pin ed ht epoch locked late s) :=
  (EntriesLast.of_logOnly (postAll_logOnly _ _ s)).trans (edgeArrival_entriesLast pin ed ht _)

theorem StepOrders.entriesLast {amount : Nat} {m u : State} (h : StepOrders amount m u) : EntriesLast m u := by
  rcases h with rfl | rfl
  · exact (takeDue_entriesLast _ _).trans (.of_logOnly (occur_logOnly _ _ _ _))
  · exact (EntriesLast.of_logOnly (occur_logOnly _ _ _ _)).trans (takeDue_entriesLast _ _)

theorem forwardStep_entriesLast (d : Nat) (s : State) : EntriesLast s (forwardStep d s) := by
  obtain ⟨draws, horders⟩ := stepNotices_orders ((s.time.step d).ht - s.time.ht) { s with time := s.time.step d }
  have hmarked : EntriesLast s { markWindows { s with time := s.time.step d } with choices := draws } := .of_eq rfl rfl
  exact hmarked.trans horders.entriesLast

/-- In RUN no due that a forward step passed over stays behind (R66). -/
theorem forwardStep_none_due {d : Nat} {s : State} (h : RunSorted s) :
    ∀ a ∈ (forwardStep d s).sched.armed, (forwardStep d s).time.ht < a.due := by
  obtain ⟨draws, horders⟩ := stepNotices_orders ((s.time.step d).ht - s.time.ht) { s with time := s.time.step d }
  have htime : (forwardStep d s).time = s.time.step d := horders.fireOnly.time
  rw [htime]
  exact horders.none_due ⟨h.run, h.sorted, h.periods⟩

/-! ## The pins that an expiry drives -/

theorem expireOne_pins (a : Armed) (n : Nat) (s : State) : (expireOne a n s).pins = (expiryDrive a s).pins := by
  cases h : a.isLead with
  | true =>
    obtain ⟨k, level, width, hact, hphase⟩ := Armed.isLead_iff.1 h
    rw [expireOne_of_lead hact hphase, (lateFire_logOnly a n _).pins]
    rfl
  | false =>
    rw [expireOne_of_not_lead h, (completeFiring_logOnly a n _).pins]
    unfold continueEntry
    split <;> rfl

/-- An expiry drives no pin but its entry's out pin (R47). -/
theorem expiryDrive_other {a : Armed} {k : Pin} (h : a.entry.action.outPin ≠ some k) (s : State) :
    (expiryDrive a s).pins.get k = s.pins.get k := by
  unfold expiryDrive
  split <;> simp_all [levelDrive, Action.outPin]

theorem takeDue_other_pins {k : Pin} (late : Bool) {s : State} (h : ∀ e ∈ s.sched.live, e.action.outPin ≠ some k) :
    (takeDue late s).1.pins.get k = s.pins.get k := by
  unfold takeDue
  generalize 2 * s.sched.armed.length = n
  induction n generalizing s with
  | zero => rfl
  | succ n ih =>
    unfold expireDue
    split
    · rfl
    · next a rest harmed =>
      split
      · have hlast := expireOne_entriesLast harmed (if late then s.time.ht - a.due else 0)
        have hout : a.entry.action.outPin ≠ some k := h a.entry (by simp [Schedule.live, harmed])
        refine (ih fun e he => ?_).trans ?_
        · obtain ⟨e', he', heq⟩ := hlast.exists_live he
          have haction : e'.action = e.action := by rw [← e'.lasting_action, heq, e.lasting_action]
          exact haction ▸ h e' he'
        · rw [expireOne_pins]
          exact expiryDrive_other hout _
      · rfl

end Sys2Proof.Machine
end

section
/-! SUPPORT. The commands that put no entry on the armed list: of the schedule they can only take entries, or hold it (R45). -/

namespace Sys2Proof.Machine

open Sys2Proof.Safety

/-! ## What such a command keeps -/

/-- From `s` to `t` entries can only leave their lists, and the schedule can only leave RUN; the HT count, the quotas and the awaited load
stay, and no pin is claimed before the load. -/
structure Shrinks (s t : State) : Prop where
  armed : t.sched.armed.Sublist s.sched.armed
  waiting : t.sched.waiting.Sublist s.sched.waiting
  run : t.sched.held = false → s.sched.held = false
  ht : t.time.ht = s.time.ht
  quotas : t.settings.quotas = s.settings.quotas
  load : t.load = s.load
  claims : t.load ≠ none → ∀ k, (s.pins.get k).holder = none → (t.pins.get k).holder = none

theorem Shrinks.of_same {s t : State} (hsched : t.sched = s.sched) (hht : t.time.ht = s.time.ht)
    (hquotas : t.settings.quotas = s.settings.quotas) (hload : t.load = s.load)
    (hclaims : ∀ k, (s.pins.get k).holder = none → (t.pins.get k).holder = none) : Shrinks s t :=
  ⟨by rw [hsched], by rw [hsched], by rw [hsched]; exact id, hht, hquotas, hload, fun _ => hclaims⟩

theorem Shrinks.refl (s : State) : Shrinks s s := .of_same rfl rfl rfl rfl fun _ => id

theorem Shrinks.of_eq {s t : State} (h : t = s) : Shrinks s t := h ▸ .refl s

theorem Shrinks.trans {s t u : State} (h : Shrinks s t) (k : Shrinks t u) : Shrinks s u where
  armed := k.armed.trans h.armed
  waiting := k.waiting.trans h.waiting
  run := h.run ∘ k.run
  ht := k.ht.trans h.ht
  quotas := k.quotas.trans h.quotas
  load := k.load.trans h.load
  claims hload pin hnone := k.claims hload pin (h.claims (k.load ▸ hload) pin hnone)

theorem Shrinks.of_logOnly {s t : State} (h : LogOnly s t) : Shrinks s t where
  armed := by rw [h.armed]
  waiting := by rw [h.waiting]
  run := by rw [h.held]; exact id
  ht := by rw [h.time]
  quotas := by rw [h.settings]
  load := h.load
  claims _ k hnone := by rw [h.pins]; exact hnone

/-- What comes before and leaves the schedule alone does not matter. -/
theorem Shrinks.after {s t u : State} (k : Shrinks t u) (h : Shrinks s t) : Shrinks s u := h.trans k

/-! ## Drives leave the claims -/

@[simp] theorem PinCell.drive_holder (rt : Nat) (level : Level) (c : PinCell) : (c.drive rt level).holder = c.holder := by
  unfold PinCell.drive
  repeat' split
  all_goals rfl

@[simp] theorem PinCell.drive_map (rt : Nat) (level : Level) (c : PinCell) : (c.drive rt level).map = c.map := by
  unfold PinCell.drive
  repeat' split
  all_goals rfl

@[simp] theorem PinCell.driveSafe_holder (rt : Nat) (c : PinCell) : (c.driveSafe rt).holder = c.holder := drive_holder _ _ c

@[simp] theorem PinCell.driveSafe_map (rt : Nat) (c : PinCell) : (c.driveSafe rt).map = c.map := drive_map _ _ c

theorem PinCell.configure_holder (m : PinMap) (rt : Nat) (held : Bool) (c : PinCell) :
    (c.configure m rt held).holder = c.holder := by
  unfold PinCell.configure
  dsimp only
  repeat' split
  all_goals simp

theorem PinCell.releasePort_holder {p : Port} {rt : Nat} {c : PinCell} (h : c.holder = none) :
    (c.releasePort p rt).holder = none := by
  simp [PinCell.releasePort, h]

/-- A change of one cell that gives its pin to no port. -/
theorem upd_claims {pins : Tab 24 PinCell} {k : Pin} {f : PinCell → PinCell}
    (hf : (pins.get k).holder = none → (f (pins.get k)).holder = none) (j : Pin) (hnone : (pins.get j).holder = none) :
    ((pins.upd k f).get j).holder = none := by
  rw [Tab.get_upd]
  split
  · next hkj => exact hf (hkj ▸ hnone)
  · exact hnone

/-! ## Events -/

theorem enterHeld_shrinks (s : State) : Shrinks s (enterHeld s) := by
  unfold enterHeld
  split
  · exact .refl s
  · refine ⟨.refl _, .refl _, fun h => absurd h (by simp), rfl, rfl, rfl, fun _ k hnone => ?_⟩
    simpa using hnone

theorem takeHoldNotice_shrinks (s : State) : Shrinks s (takeHoldNotice s) := by
  unfold takeHoldNotice
  split
  · exact (enterHeld_shrinks _).after ⟨.refl _, .refl _, id, rfl, rfl, rfl, fun _ _ => id⟩
  · exact .refl s

theorem enterState_shrinks (new : DiscState) (s : State) : Shrinks s (enterState new s) := by
  unfold enterState
  dsimp only
  split
  · exact .of_same rfl rfl rfl rfl fun _ => id
  · exact (Shrinks.of_logOnly (reportChange_logOnly _ _ _)).after (.of_same rfl rfl rfl rfl fun _ => id)

/-- A move to a state after a change of the discipline unit alone. -/
theorem enterState_shrinks_after (new : DiscState) (d : Discipline) (s : State) :
    Shrinks s (enterState new { s with disc := d }) :=
  (enterState_shrinks new _).after (.of_same rfl rfl rfl rfl fun _ => id)

theorem miss_shrinks (s : State) : Shrinks s (miss s) := by
  have hcount : Shrinks s (countMiss s) := .of_same rfl rfl rfl rfl fun _ => id
  unfold miss
  dsimp only
  repeat' split
  · exact hcount.trans ((Shrinks.of_logOnly (occur_logOnly _ _ _ _)).trans (enterState_shrinks_after _ _ _))
  · exact hcount
  · exact .refl s

theorem contentionCheck_shrinks (pin : Pin) (level : Level) (s : State) : Shrinks s (contentionCheck pin level s) := by
  have hidle : Shrinks s { s with pins := s.pins.upd pin fun c => { c with check := none } } :=
    .of_same rfl rfl rfl rfl (upd_claims id)
  unfold contentionCheck
  dsimp only
  repeat' split
  · exact hidle
  · exact hidle
  · exact hidle.trans (.of_logOnly (occur_logOnly _ _ _ _))
  · exact .refl s

theorem purgePin_shrinks (p : Port) (pin : Pin) (why : Reason) (s : State) : Shrinks s (purgePin p pin why s) :=
  (Shrinks.of_logOnly (postCancelled_logOnly why _ _)).after
    ⟨List.filter_sublist, List.filter_sublist, id, rfl, rfl, rfl, fun _ _ => id⟩

theorem loseClaim_shrinks (p : Port) (pin : Pin) (why : Reason) (s : State) : Shrinks s (loseClaim p pin why s) := by
  refine (purgePin_shrinks p pin why s).trans (.of_same rfl rfl rfl rfl fun k hnone => ?_)
  refine upd_claims (fun hnone => ?_) k (upd_claims (fun _ => rfl) k hnone)
  rw [PinCell.driveSafe_holder]
  exact hnone

theorem expireClaims_shrinks (p : Port) (pins : List Pin) (s : State) : Shrinks s (expireClaims p pins s) := by
  induction pins generalizing s with
  | nil => exact .refl s
  | cons pin pins ih =>
    unfold expireClaims
    split
    · exact ((loseClaim_shrinks p pin .lease s).trans (.of_logOnly (post_logOnly _ _ _))).trans (ih _)
    · exact ih s

theorem expireSettings_shrinks (p : Port) (s : State) : Shrinks s (expireSettings p s) := by
  unfold expireSettings
  split
  · exact (Shrinks.of_logOnly (post_logOnly _ _ _)).after (.of_same rfl rfl rfl rfl fun _ => id)
  · exact .refl s

theorem leaseExpiry_shrinks (p : Port) (s : State) : Shrinks s (leaseExpiry p s) := by
  have hraised := (((expireClaims_shrinks p allPins s).trans (expireSettings_shrinks p _)).trans
    (.of_logOnly (occur_logOnly .leaseExpired (some p) .none _))).trans (.of_logOnly (raiseClass_logOnly p .claim _))
  unfold leaseExpiry
  dsimp only
  split
  · generalize raiseClass p .claim _ = u at hraised ⊢
    exact hraised.trans (.of_same rfl rfl rfl rfl fun _ => id)
  · exact .refl s

theorem postStoreDone_logOnly (requester : Option Port) (verified : Bool) (s : State) :
    LogOnly s (postStoreDone requester verified s) := by
  unfold postStoreDone
  split
  · exact .refl s
  · exact (post_logOnly _ _ s).trans (raiseClass_logOnly _ _ _)

theorem storeCompletion_shrinks (verified : Bool) (s : State) : Shrinks s (storeCompletion verified s) := by
  unfold storeCompletion
  split
  · exact .refl s
  · exact .refl s
  · next snapshot takenAt freeze _ =>
    have hdone : Shrinks s (postStoreDone s.settings.requester verified
        { s with settings := s.settings.finishWrite verified snapshot freeze }) :=
      (Shrinks.of_logOnly (postStoreDone_logOnly _ _ _)).after (.of_same rfl rfl rfl rfl fun _ => id)
    dsimp only
    repeat' split
    · exact hdone
    · exact hdone.trans (.of_logOnly (occur_logOnly _ _ _ _))
    · exact .refl s

theorem portResetOf_shrinks (p : Port) (s : State) : Shrinks s (portResetOf p s) := by
  refine ⟨List.filter_sublist, List.filter_sublist, id, rfl, rfl, rfl, fun _ k hnone => ?_⟩
  change ((s.pins.map (PinCell.releasePort p s.time.rt)).get k).holder = none
  rw [Tab.get_map]
  exact PinCell.releasePort_holder hnone

theorem prstnFall_shrinks (p : Port) (s : State) : Shrinks s (prstnFall p s) := by
  have hpull : Shrinks s (pullPrstn p s) := .of_same rfl rfl rfl rfl fun _ => id
  unfold prstnFall
  dsimp only
  repeat' split
  · exact .refl s
  · exact hpull.trans (portResetOf_shrinks p _)
  · exact hpull

theorem prstnRise_shrinks (p : Port) (begun : Bool) (s : State) : Shrinks s (prstnRise p begun s) := by
  unfold prstnRise
  split <;> exact .of_same rfl rfl rfl rfl fun _ => id

theorem badFrame_shrinks (p : Port) (bytes : List Byte) (trailing : Nat) (s : State) :
    Shrinks s (badFrame p bytes trailing s) := by
  unfold badFrame
  repeat' split
  · exact .refl s
  · exact (Shrinks.of_logOnly (occur_logOnly _ _ _ _)).after (.of_same rfl rfl rfl rfl fun _ => id)
  · exact .of_same rfl rfl rfl rfl fun _ => id

theorem resultRead_shrinks (p : Port) (s : State) : Shrinks s (resultRead p s) := by
  unfold resultRead
  split <;> exact .of_same rfl rfl rfl rfl fun _ => id

/-! ## Requests -/

theorem frameEnd_shrinks (p : Port) (s : State) : Shrinks s (frameEnd p s) := .of_same rfl rfl rfl rfl fun _ => id

theorem answer_shrinks (p : Port) (r : Result) (s : State) : Shrinks s (answer p r s) := .of_same rfl rfl rfl rfl fun _ => id

/-- A request frame keeps what its rule keeps in a state that takes the frame. -/
theorem request_shrinks_of_takes {p : Port} {code : Byte} {s : State} {rule : State → Reply}
    (h : s.takesFrames p = true → Shrinks s (rule s).state) : Shrinks s (request p code s rule) := by
  rcases request_cases p code s rule with ⟨e, -⟩ | ⟨e, htakes⟩ <;> rw [e]
  · exact frameEnd_shrinks p s
  · exact (h htakes).trans (answer_shrinks _ _ _)

theorem request_shrinks {p : Port} {code : Byte} {s : State} {rule : State → Reply} (h : Shrinks s (rule s).state) :
    Shrinks s (request p code s rule) := request_shrinks_of_takes fun _ => h

theorem unknownRequest_shrinks (p : Port) (code : Byte) (args : List Byte) (s : State) :
    Shrinks s (unknownRequest p code args s) := by
  unfold unknownRequest
  split
  · exact .refl s
  · exact request_shrinks (.refl s)

theorem portReset_shrinks {p : Port} {args : List Byte} {s t : State} (h : exec (.portReset p args) s = .next t) :
    Shrinks s t := by
  cases h
  repeat' split
  · exact request_shrinks (.refl s)
  · exact portResetOf_shrinks p s
  · exact frameEnd_shrinks p s

theorem refConfigure_shrinks (p : Port) (args : List Byte) (s : State) : Shrinks s (refConfigure p args s).state := by
  unfold refConfigure
  repeat' split
  · exact .refl s
  · exact .refl s
  · exact .refl s
  · exact enterState_shrinks_after _ _ s

theorem removeTag_shrinks (p : Port) (tag : Byte) (s : State) : Shrinks s (removeTag p tag s) :=
  ⟨List.filter_sublist, List.filter_sublist, id, rfl, rfl, rfl, fun _ _ => id⟩

theorem expiryDrive_shrinks (a : Armed) (s : State) : Shrinks s (expiryDrive a s) := by
  have hdrive : ∀ (k : Pin) (level : Level), Shrinks s (levelDrive k level s) := fun k level =>
    .of_same rfl rfl rfl rfl (upd_claims fun hnone => by rw [PinCell.drive_holder]; exact hnone)
  unfold expiryDrive
  split
  · exact hdrive _ _
  · exact hdrive _ _
  · exact hdrive _ _
  · exact .refl s

theorem cancel_shrinks (p : Port) (args : List Byte) (s : State) : Shrinks s (cancel p args s).state := by
  have hdrive : ∀ a, Shrinks s (cancelDrive a s) := fun a => by
    unfold cancelDrive
    repeat' split
    · exact .refl s
    · exact .refl s
    · exact expiryDrive_shrinks a s
  unfold cancel
  dsimp only
  repeat' split
  · exact .refl s
  · exact (hdrive _).trans (removeTag_shrinks p _ _)
  · exact removeTag_shrinks p _ s
  · exact .refl s

theorem hold_shrinks (p : Port) (args : List Byte) (s : State) : Shrinks s (hold p args s).state := by
  unfold hold
  repeat' split
  · exact .refl s
  · exact .refl s
  · exact enterHeld_shrinks s

theorem pinRelease_shrinks (p : Port) (args : List Byte) (s : State) : Shrinks s (pinRelease p args s).state := by
  unfold pinRelease
  repeat' split
  · exact .refl s
  · exact .refl s
  · exact .refl s
  · exact loseClaim_shrinks _ _ _ s

theorem pinConfigure_shrinks (p : Port) (args : List Byte) (level : Level) (s : State) :
    Shrinks s (pinConfigure p args level s).state := by
  unfold pinConfigure
  repeat' split
  · exact .refl s
  · exact .refl s
  · exact .refl s
  · exact .refl s
  · exact .refl s
  · exact .of_same rfl rfl rfl rfl (upd_claims fun hnone => by rw [PinCell.configure_holder]; exact hnone)

/-- A claim is given by a request, and so after the load. -/
theorem pinClaim_shrinks (p : Port) (args : List Byte) {s : State} (hload : s.load = none) :
    Shrinks s (pinClaim p args s).state := by
  unfold pinClaim
  repeat' split
  · exact .refl s
  · exact .refl s
  · exact .refl s
  · exact .refl s
  · exact .refl s
  · exact .refl s
  · exact ⟨.refl _, .refl _, id, rfl, rfl, rfl, fun hne => absurd hload hne⟩

theorem pinWrite_shrinks (p : Port) (args : List Byte) (s : State) : Shrinks s (pinWrite p args s).state := by
  unfold pinWrite
  repeat' split
  · exact .refl s
  · exact .refl s
  · exact .refl s
  · exact .refl s
  · exact .of_same rfl rfl rfl rfl (upd_claims fun hnone => by rw [PinCell.drive_holder]; exact hnone)
  · exact .refl s
  · exact .refl s

/-! Requests that leave the schedule, the time counter, the quotas and the pins alone. -/

theorem disciplineProfile_shrinks (p : Port) (args : List Byte) (s : State) : Shrinks s (disciplineProfile p args s).state := by
  unfold disciplineProfile
  dsimp only
  repeat' split
  all_goals exact .of_same rfl rfl rfl rfl fun _ => id

theorem disciplineStatus_shrinks (p : Port) (args : List Byte) (s : State) : Shrinks s (disciplineStatus p args s).state := by
  unfold disciplineStatus
  split <;> exact .of_same rfl rfl rfl rfl fun _ => id

theorem scheduleConfigure_shrinks (p : Port) (args : List Byte) (s : State) : Shrinks s (scheduleConfigure p args s).state := by
  unfold scheduleConfigure
  dsimp only
  repeat' split
  all_goals exact ⟨.refl _, .refl _, id, rfl, rfl, rfl, fun _ _ => id⟩

theorem subscribe_shrinks (p : Port) (args : List Byte) (s : State) : Shrinks s (subscribe p args s).state := by
  unfold subscribe
  repeat' split
  all_goals exact .of_same rfl rfl rfl rfl fun _ => id

theorem eventRead_shrinks (p : Port) (args : List Byte) (s : State) : Shrinks s (eventRead p args s).state := by
  unfold eventRead
  dsimp only
  repeat' split
  all_goals exact .of_same rfl rfl rfl rfl fun _ => id

theorem ringConfigure_shrinks (p : Port) (args : List Byte) (s : State) : Shrinks s (ringConfigure p args s).state := by
  unfold ringConfigure ok
  dsimp only
  repeat' split
  all_goals exact .of_same rfl rfl rfl rfl fun _ => id

theorem vectorConfigure_shrinks (p : Port) (args : List Byte) (s : State) : Shrinks s (vectorConfigure p args s).state := by
  unfold vectorConfigure
  repeat' split
  all_goals exact .of_same rfl rfl rfl rfl fun _ => id

theorem vectorAck_shrinks (p : Port) (args : List Byte) (s : State) : Shrinks s (vectorAck p args s).state := by
  unfold vectorAck
  dsimp only
  repeat' split
  all_goals exact .of_same rfl rfl rfl rfl fun _ => id

theorem notifyControl_shrinks (p : Port) (args : List Byte) (s : State) : Shrinks s (notifyControl p args s).state := by
  unfold notifyControl
  repeat' split
  all_goals exact .of_same rfl rfl rfl rfl fun _ => id

theorem faultClear_shrinks (p : Port) (args : List Byte) (s : State) : Shrinks s (faultClear p args s).state := by
  unfold faultClear
  repeat' split
  all_goals exact .of_same rfl rfl rfl rfl fun _ => id

theorem faultConfigure_shrinks (p : Port) (args : List Byte) (s : State) : Shrinks s (faultConfigure p args s).state := by
  unfold faultConfigure
  repeat' split
  all_goals exact .of_same rfl rfl rfl rfl fun _ => id

theorem faultRecordClear_shrinks (p : Port) (args : List Byte) (s : State) : Shrinks s (faultRecordClear p args s).state := by
  unfold faultRecordClear
  repeat' split
  all_goals exact .of_same rfl rfl rfl rfl fun _ => id

theorem settingsClaim_shrinks (p : Port) (args : List Byte) (s : State) : Shrinks s (settingsClaim p args s).state := by
  unfold settingsClaim
  repeat' split
  all_goals exact .of_same rfl rfl rfl rfl fun _ => id

theorem settingsRelease_shrinks (p : Port) (args : List Byte) (s : State) : Shrinks s (settingsRelease p args s).state := by
  unfold settingsRelease
  repeat' split
  all_goals exact .of_same rfl rfl rfl rfl fun _ => id

theorem writeStore_shrinks (p : Port) (args : List Byte) (freeze : Bool) (s : State) :
    Shrinks s (writeStore p args freeze s).state := by
  unfold writeStore
  repeat' split
  all_goals exact .of_same rfl rfl rfl rfl fun _ => id

theorem leaseSet_shrinks (p : Port) (args : List Byte) (s : State) : Shrinks s (leaseSet p args s).state := by
  unfold leaseSet
  repeat' split
  all_goals exact .of_same rfl rfl rfl rfl fun _ => id

theorem leaseRenew_shrinks (p : Port) (args : List Byte) (s : State) : Shrinks s (leaseRenew p args s).state := by
  unfold leaseRenew
  split <;> exact .of_same rfl rfl rfl rfl fun _ => id

/-! ## Every such command -/

/-- The commands that admit or expire entries, move the HT count or the quotas, or reset. -/
def movesEntries : Instr → Bool
  | .powerOn | .powerLoss | .resetnFall | .hubReset _ _ | .settingsLoad _ | .advance | .expiry | .activeEdge _
  | .transition _ _ | .debounceWindowEnd _ _ | .timeSet _ _ | .scheduleAt _ _ | .scheduleOnEdge _ _ | .resume _ _
  | .portLimitsSet _ _ => true
  | _ => false

theorem exec_shrinks {c : Instr} {s t : State} (h : exec c s = .next t) (hc : movesEntries c = false) : Shrinks s t := by
  cases c with
  | powerOn | powerLoss | resetnFall | hubReset | settingsLoad | advance | expiry | activeEdge | transition
  | debounceWindowEnd | timeSet | scheduleAt | scheduleOnEdge | resume | portLimitsSet => cases hc
  | prstnFall p => cases h; exact prstnFall_shrinks p s
  | miss => cases h; exact miss_shrinks s
  | contentionCheck pin level => cases h; exact contentionCheck_shrinks pin level s
  | leaseExpiry p => cases h; exact leaseExpiry_shrinks p s
  | storeCompletion verified => cases h; exact storeCompletion_shrinks verified s
  | holdNotice => cases h; exact takeHoldNotice_shrinks s
  | badFrame p bytes trailing => cases h; exact badFrame_shrinks p bytes trailing s
  | unknownRequest p code args => cases h; exact unknownRequest_shrinks p code args s
  | resultRead p => cases h; exact resultRead_shrinks p s
  | identify p args => cases h; exact request_shrinks (.of_eq (identify_state p args s))
  | portStatus p args => cases h; exact request_shrinks (.of_eq (portStatus_state p args s))
  | portReset p args => exact portReset_shrinks h
  | leaseSet p args => cases h; exact request_shrinks (leaseSet_shrinks p args s)
  | leaseRenew p args => cases h; exact request_shrinks (leaseRenew_shrinks p args s)
  | timeRead p args => cases h; exact request_shrinks (.of_eq (timeRead_state args s))
  | timeReadScaled p args => cases h; exact request_shrinks (.of_eq (timeReadScaled_state args s))
  | refConfigure p args => cases h; exact request_shrinks (refConfigure_shrinks p args s)
  | disciplineProfile p args => cases h; exact request_shrinks (disciplineProfile_shrinks p args s)
  | disciplineStatus p args => cases h; exact request_shrinks (disciplineStatus_shrinks p args s)
  | cancel p args => cases h; exact request_shrinks (cancel_shrinks p args s)
  | entryQuery p args => cases h; exact request_shrinks (.of_eq (entryQuery_state p args s))
  | scheduleList p args => cases h; exact request_shrinks (.of_eq (scheduleList_state p args s))
  | hold p args => cases h; exact request_shrinks (hold_shrinks p args s)
  | scheduleConfigure p args => cases h; exact request_shrinks (scheduleConfigure_shrinks p args s)
  | pinConfigure p args level => cases h; exact request_shrinks (pinConfigure_shrinks p args level s)
  | pinClaim p args =>
    cases h
    exact request_shrinks_of_takes fun htakes => pinClaim_shrinks p args (load_none_of_takesFrames htakes)
  | pinRelease p args => cases h; exact request_shrinks (pinRelease_shrinks p args s)
  | pinWrite p args => cases h; exact request_shrinks (pinWrite_shrinks p args s)
  | pinRead p args => cases h; exact request_shrinks (.of_eq (pinRead_state args s))
  | subscribe p args => cases h; exact request_shrinks (subscribe_shrinks p args s)
  | eventRead p args => cases h; exact request_shrinks (eventRead_shrinks p args s)
  | ringConfigure p args => cases h; exact request_shrinks (ringConfigure_shrinks p args s)
  | vectorConfigure p args => cases h; exact request_shrinks (vectorConfigure_shrinks p args s)
  | vectorAck p args => cases h; exact request_shrinks (vectorAck_shrinks p args s)
  | notifyControl p args => cases h; exact request_shrinks (notifyControl_shrinks p args s)
  | vectorRead p args => cases h; exact request_shrinks (.of_eq (vectorRead_state p args s))
  | faultRead p args => cases h; exact request_shrinks (.of_eq (faultRead_state args s))
  | faultClear p args => cases h; exact request_shrinks (faultClear_shrinks p args s)
  | faultConfigure p args => cases h; exact request_shrinks (faultConfigure_shrinks p args s)
  | faultRecordClear p args => cases h; exact request_shrinks (faultRecordClear_shrinks p args s)
  | settingsClaim p args => cases h; exact request_shrinks (settingsClaim_shrinks p args s)
  | settingsRelease p args => cases h; exact request_shrinks (settingsRelease_shrinks p args s)
  | settingsRead p args => cases h; exact request_shrinks (.of_eq (settingsRead_state args s))
  | storeWrite p args => cases h; exact request_shrinks (writeStore_shrinks p args _ s)
  | storeFreeze p args => cases h; exact request_shrinks (writeStore_shrinks p args _ s)
  | prstnRise rise => cases h; exact prstnRise_shrinks _ _ s
  | resetnRise => cases h; exact .of_same rfl rfl rfl rfl fun _ => id

end Sys2Proof.Machine
end

section
/-! SUPPORT. What every step keeps of the schedule: the due order, the periods, no due left behind in RUN (R44, R45), slots and tags
apart, and the holdings within the quotas (R38, R39, R172). -/

namespace Sys2Proof.Machine

open Sys2Proof.Safety

/-! ## The checks of an admission -/

theorem tagLive_iff {c : Schedule} {p : Port} {tag : Byte} :
    c.tagLive p tag = true ↔ ∃ e ∈ c.live, e.owner = p ∧ e.tag = tag := by
  simp [Schedule.tagLive]

/-- The lowest-numbered free slot (R38). -/
theorem freeSlot_eq_some_iff {c : Schedule} {slot : Slot} :
    c.freeSlot = some slot ↔ (∀ e ∈ c.live, e.slot ≠ slot) ∧ ∀ sl < slot, ∃ e ∈ c.live, e.slot = sl := by
  unfold Schedule.freeSlot allSlots
  rw [List.find?_eq_some_iff_getElem]
  simp only [List.any_eq_false, decide_eq_true_eq, List.length_finRange, List.getElem_finRange, Bool.not_eq_eq_eq_not,
    Bool.not_true]
  refine and_congr_right fun _ => ⟨?_, fun h => ⟨slot.val, slot.isLt, rfl, fun j hj => ?_⟩⟩
  · rintro ⟨i, hi, heq, hbelow⟩ sl hlt
    subst heq
    simpa using hbelow sl.val hlt
  · simpa using h ⟨j, by omega⟩ hj

theorem freeSlot_eq_none_iff {c : Schedule} : c.freeSlot = none ↔ ∀ sl : Slot, ∃ e ∈ c.live, e.slot = sl := by
  simp [Schedule.freeSlot, allSlots]

theorem isOut_iff {k : Pin} {s : State} : s.isOut k = true ↔ (s.pins.get k).map.dir = .output := by
  simp [State.isOut]

theorem holdsPin_iff {p : Port} {k : Pin} {s : State} : s.holdsPin p k = true ↔ (s.pins.get k).holder = some p := by
  simp [State.holdsPin]

/-- Checks 6 to 8 of R42 and R109: the tag, the slots, the quota. -/
theorem tagAndSlot_eq_ok {p : Port} {a : Admission} {s : State} {slot : Slot}
    (h : admissionChecks.tagAndSlot p a s = .ok slot) :
    (∀ e ∈ s.sched.live, ¬(e.owner = p ∧ e.tag = a.tag)) ∧ (∀ e ∈ s.sched.live, e.slot ≠ slot) ∧
      s.sched.holdings p < s.settings.quotas.get p := by
  unfold admissionChecks.tagAndSlot at h
  split at h
  · cases h
  · next htag =>
    split at h
    · cases h
    · next hfree =>
      split at h
      · cases h
      · next hquota =>
        cases h
        refine ⟨?_, (freeSlot_eq_some_iff.1 hfree).1, Nat.not_le.1 hquota⟩
        simpa [tagLive_iff] using htag

theorem admissionChecks_eq_ok {p : Port} {a : Admission} {s : State} {slot : Slot} (h : admissionChecks p a s = .ok slot) :
    (∀ e ∈ s.sched.live, ¬(e.owner = p ∧ e.tag = a.tag)) ∧ (∀ e ∈ s.sched.live, e.slot ≠ slot) ∧
      s.sched.holdings p < s.settings.quotas.get p := by
  unfold admissionChecks at h
  split at h
  · split at h
    · cases h
    · split at h
      · cases h
      · exact tagAndSlot_eq_ok h
  · exact tagAndSlot_eq_ok h

/-! ## Admissions -/

/-- From `s` to `t` the entry `e` is admitted, with a tag and a slot that are free and within its owner's quota (R38, R39, R42, R109);
no other joins the schedule. -/
structure Admitted (e : Entry) (s t : State) : Prop where
  lasting : t.sched.lasting.Subperm (e.lasting :: s.sched.lasting)
  sorted : ArmedSorted s → ArmedSorted t
  tag : ∀ e' ∈ s.sched.live, ¬(e'.owner = e.owner ∧ e'.tag = e.tag)
  slot : ∀ e' ∈ s.sched.live, e'.slot ≠ e.slot
  quota : s.sched.holdings e.owner < s.settings.quotas.get e.owner
  period : ∀ q, e.kind = .timed (some q) → 0 < q.period

/-- The period of an entry that is periodic, in its range (R42). -/
theorem readPeriodic_eq_some {present : Bool} {action : Action} {args : List Byte} {off : Nat} {o : Option Periodic}
    (h : readPeriodic present action args off = some o) :
    present = false ∧ o = none ∨ present = true ∧ o = some ⟨fld args off 8, fld args (off + 8) 2⟩ ∧
      1000 ≤ fld args off 8 ∧ fld args off 8 ≤ 2 ^ 40 ∧
      ∀ pin level width, action = .pulse pin level width → width + 100 ≤ fld args off 8 := by
  cases present with
  | false => exact .inl ⟨rfl, by simpa [readPeriodic] using h.symm⟩
  | true =>
    refine .inr ⟨rfl, ?_⟩
    cases action <;> simp [readPeriodic, spanLimit] at h <;> obtain ⟨hrange, rfl⟩ := h <;> simp <;> omega

theorem readPeriodic_positive {present : Bool} {action : Action} {args : List Byte} {off : Nat} {q : Periodic}
    (h : readPeriodic present action args off = some (some q)) : 0 < q.period := by
  rcases readPeriodic_eq_some h with ⟨-, hnone⟩ | ⟨-, hsome, hlow, -⟩
  · cases hnone
  · cases hsome
    exact Nat.lt_of_lt_of_le (by decide) hlow

theorem readScheduleAt_period {args : List Byte} {a : Admission} (h : readScheduleAt args = some a) {q : Periodic}
    (hkind : a.kind = .timed (some q)) : 0 < q.period := by
  simp only [readScheduleAt, Option.bind_eq_bind, Option.bind_eq_some_iff] at h
  obtain ⟨action, -, n, -, periodic, hperiodic, vector, -, h⟩ := h
  split at h
  · cases h
    cases hkind
    exact readPeriodic_positive hperiodic
  · cases h

theorem readScheduleOnEdge_edge {args : List Byte} {a : Admission} (h : readScheduleOnEdge args = some a) :
    ∃ pin ed offset rearm, a.kind = .edge pin ed offset rearm := by
  simp only [readScheduleOnEdge, Option.bind_eq_bind, Option.bind_eq_some_iff] at h
  obtain ⟨pin, -, ed, -, action, -, n, -, vector, -, h⟩ := h
  split at h
  · cases h
    exact ⟨_, _, _, _, rfl⟩
  · cases h

theorem armEntry_sorted (a : Armed) {s : State} (h : ArmedSorted s) : ArmedSorted (armEntry a s) := insertArmed_sorted a h

/-- A placed entry is the one that joins, whether or not it fires at once (R43). -/
theorem placeTimed_lasting (e : Entry) (due : Nat) (s : State) :
    (placeTimed e due s).sched.lasting.Subperm (e.lasting :: s.sched.lasting) ∧
      (ArmedSorted s → ArmedSorted (placeTimed e due s)) := by
  have harm : (armEntry ⟨e, due, .lead⟩ s).sched.lasting.Subperm (e.lasting :: s.sched.lasting) :=
    (armEntry_lasting _ s).subperm
  unfold placeTimed
  dsimp only
  split
  · have hfire := takeDue_entriesLast true (armEntry ⟨e, due, .lead⟩ s)
    exact ⟨hfire.lasting.trans harm, fun h => hfire.sorted (armEntry_sorted _ h)⟩
  · exact ⟨harm, armEntry_sorted _⟩

theorem scheduleAt_entries (p : Port) (args : List Byte) (s : State) :
    EntriesLast s (scheduleAt p args s).state ∨ ∃ e, Admitted e s (scheduleAt p args s).state := by
  unfold scheduleAt
  dsimp only
  repeat' split
  · exact .inl (.refl s)
  · exact .inl (.refl s)
  · exact .inl (.refl s)
  · exact .inl (.refl s)
  · next a hread _ slot hchecks =>
    obtain ⟨htag, hslot, hquota⟩ := admissionChecks_eq_ok hchecks
    obtain ⟨hlasting, hsorted⟩ := placeTimed_lasting (a.entry p slot) (fld args 3 8) s
    exact .inr ⟨a.entry p slot, hlasting, hsorted, htag, hslot, hquota, fun q hq => readScheduleAt_period hread hq⟩

theorem scheduleOnEdge_entries (p : Port) (args : List Byte) (s : State) :
    EntriesLast s (scheduleOnEdge p args s).state ∨ ∃ e, Admitted e s (scheduleOnEdge p args s).state := by
  unfold scheduleOnEdge
  dsimp only
  repeat' split
  · exact .inl (.refl s)
  · exact .inl (.refl s)
  · exact .inl (.refl s)
  · exact .inl (.refl s)
  · next a hread _ _ slot hchecks =>
    obtain ⟨htag, hslot, hquota⟩ := admissionChecks_eq_ok hchecks
    obtain ⟨pin, ed, offset, rearm, hkind⟩ := readScheduleOnEdge_edge hread
    refine .inr ⟨a.entry p slot, (waitEntry_lasting _ s).subperm, id, htag, hslot, hquota, fun q hq => ?_⟩
    rw [Admission.entry, hkind] at hq
    cases hq

/-! ## The entries after every command -/

theorem Shrinks.entriesLast {s t : State} (h : Shrinks s t) : EntriesLast s t := .of_sublist h.armed h.waiting

/-- An empty schedule, as after a reset. -/
theorem EntriesLast.of_empty {s t : State} (harmed : t.sched.armed = []) (hwaiting : t.sched.waiting = []) : EntriesLast s t :=
  .of_sublist (by simp [harmed]) (by simp [hwaiting])

theorem EntriesLast.after {s t u : State} (k : EntriesLast t u) (h : EntriesLast s t) : EntriesLast s u := h.trans k

theorem request_entriesLast {p : Port} {code : Byte} {s : State} {rule : State → Reply} (h : EntriesLast s (rule s).state) :
    EntriesLast s (request p code s rule) := by
  rcases request_cases p code s rule with ⟨e, -⟩ | ⟨e, -⟩ <;> rw [e]
  · exact (frameEnd_shrinks p s).entriesLast
  · exact h.trans (answer_shrinks _ _ _).entriesLast

/-- The frame of a SCHEDULE AT or SCHEDULE ON EDGE admits what its rule admits. -/
theorem request_entries {p : Port} {code : Byte} {s : State} {rule : State → Reply}
    (h : EntriesLast s (rule s).state ∨ ∃ e, Admitted e s (rule s).state) :
    EntriesLast s (request p code s rule) ∨ ∃ e, Admitted e s (request p code s rule) := by
  rcases h with h | ⟨e, hadmitted⟩
  · exact .inl (request_entriesLast h)
  · rcases request_cases p code s rule with ⟨heq, -⟩ | ⟨heq, -⟩ <;> rw [heq]
    · exact .inl (frameEnd_shrinks p s).entriesLast
    · exact .inr ⟨e, hadmitted.lasting, hadmitted.sorted, hadmitted.tag, hadmitted.slot, hadmitted.quota, hadmitted.period⟩

theorem expiry_entriesLast (s : State) : EntriesLast s (expiry s) := by
  unfold expiry
  split
  · exact takeDue_entriesLast false s
  · exact .refl s

theorem edgeInAcquire_entriesLast (e : Int) (s : State) : EntriesLast s (edgeInAcquire e s) := by
  unfold edgeInAcquire
  dsimp only
  repeat' split
  · exact .of_eq rfl rfl
  · exact (forwardStep_entriesLast _ _).after (.of_eq rfl rfl)
  · exact (enterState_shrinks_after _ _ s).entriesLast
  · exact .of_eq rfl rfl

theorem intoLongWindow_shrinks (e : Int) (s : State) : Shrinks s (intoLongWindow e s) := by
  unfold intoLongWindow
  dsimp only
  repeat' split
  · exact .of_same rfl rfl rfl rfl fun _ => id
  · exact enterState_shrinks_after _ _ s
  · exact .of_same rfl rfl rfl rfl fun _ => id

theorem unlock_shrinks (e : Int) (s : State) : Shrinks s (unlock e s) := by
  have hleft : Shrinks s { s with disc := { s.disc with state := .track, window := [], unlockSeen := .fill 4 true } } :=
    .of_same rfl rfl rfl rfl fun _ => id
  unfold unlock
  dsimp only
  repeat' split
  · exact hleft.trans (.of_logOnly (occur_logOnly _ _ _ _))
  · refine hleft.trans (.of_logOnly ?_)
    exact (drawFirst_logOnly _).trans ((occur_logOnly _ _ _ _).trans (reportChange_logOnly _ _ _))
  · refine hleft.trans (.of_logOnly ?_)
    exact (drawFirst_logOnly _).trans ((reportChange_logOnly _ _ _).trans (occur_logOnly _ _ _ _))

/-- The handling of an edge outside ACQUIRE touches no entry (R22, R23, R26, R27). -/
theorem handleEdge_shrinks {s : State} (h : s.disc.state ≠ .acquire) : Shrinks s (handleEdge s) := by
  unfold handleEdge
  split
  · exact .refl s
  · unfold edgeInSearch
    split
    · exact .of_same rfl rfl rfl rfl fun _ => id
    · exact enterState_shrinks_after _ _ s
  · next hstate => exact absurd hstate h
  · unfold edgeInTrack
    split
    · exact enterState_shrinks_after _ _ s
    · exact intoLongWindow_shrinks _ s
  · unfold edgeInLocked
    split
    · exact unlock_shrinks _ s
    · exact intoLongWindow_shrinks _ s
  · unfold edgeInHoldover
    split
    · exact .of_same rfl rfl rfl rfl fun _ => id
    · exact enterState_shrinks_after _ _ s

theorem acceptEdge_shrinks (s : State) : Shrinks s (acceptEdge s) := .of_same rfl rfl rfl rfl fun _ => id

theorem handleEdge_entriesLast (s : State) : EntriesLast s (handleEdge s) := by
  by_cases h : s.disc.state = .acquire
  · rw [handleEdge_of_acquire h]
    exact edgeInAcquire_entriesLast _ s
  · exact (handleEdge_shrinks h).entriesLast

theorem activeEdge_entriesLast (change : Edge) (s : State) : EntriesLast s (activeEdge change s) := by
  unfold activeEdge
  repeat' split
  · exact (acceptEdge_shrinks s).entriesLast.trans (handleEdge_entriesLast _)
  · exact .of_logOnly (occur_logOnly _ _ _ s)
  · exact .refl s

theorem transition_entriesLast (pin : Pin) (level : Level) (s : State) : EntriesLast s (transition pin level s) := by
  unfold transition
  repeat' split
  · exact .refl s
  · exact .of_eq rfl rfl
  · exact (handOn_entriesLast _ _ _ _ _ _ _).after (.of_eq rfl rfl)
  · exact .of_eq rfl rfl
  · exact .refl s

theorem debounceWindowEnd_entriesLast (pin : Pin) (level : Level) (s : State) :
    EntriesLast s (debounceWindowEnd pin level s) := by
  unfold debounceWindowEnd
  dsimp only
  repeat' split
  · exact .refl s
  · exact .of_eq rfl rfl
  · exact (handOn_entriesLast _ _ _ _ _ _ _).after (.of_eq rfl rfl)

theorem timeSet_entriesLast (p : Port) (args : List Byte) (s : State) : EntriesLast s (timeSet p args s).state := by
  unfold timeSet
  dsimp only
  repeat' split
  · exact .refl s
  · exact .refl s
  · exact .refl s
  · exact .refl s
  · exact .refl s
  · exact .refl s
  · exact forwardStep_entriesLast _ s

theorem resume_entriesLast (p : Port) (args : List Byte) (s : State) : EntriesLast s (resume p args s).state := by
  unfold resume
  repeat' split
  · exact .refl s
  · exact .refl s
  · exact .refl s
  · next t n htake =>
    have hfire := takeDue_entriesLast true { s with sched := { s.sched with held := false } }
    rw [htake] at hfire
    exact hfire.after (.of_eq rfl rfl)
  · exact .refl s

theorem settingsLoad_sched (levels : BitVec 24) (begun : BitVec 4) (s : State) :
    (settingsLoad levels begun s).sched.armed = s.sched.armed ∧ (settingsLoad levels begun s).sched.waiting = s.sched.waiting ∧
      (settingsLoad levels begun s).sched.held = s.sched.held := by
  unfold settingsLoad
  repeat' split
  · exact ⟨rfl, rfl, rfl⟩
  · exact ⟨rfl, rfl, rfl⟩
  · next kind _ _ _ _ =>
    have hlog := occur_logOnly .storeInvalid none .none (putSettings kind .builtin false levels begun s)
    exact ⟨hlog.armed, hlog.waiting, hlog.held⟩
  · exact ⟨rfl, rfl, rfl⟩

theorem portLimitsSet_sched (p : Port) (args : List Byte) (s : State) : (portLimitsSet p args s).state.sched = s.sched := by
  unfold portLimitsSet
  dsimp only
  repeat' split
  all_goals rfl

theorem resetnFall_entriesLast (s : State) : EntriesLast s (resetnFall s) := by
  unfold resetnFall
  dsimp only
  repeat' split
  · exact .refl s
  · exact .of_empty rfl rfl
  · exact .of_eq rfl rfl

theorem hubReset_entriesLast {p : Port} {args : List Byte} {s t : State} (h : exec (.hubReset p args) s = .next t) :
    EntriesLast s t := by
  cases h
  repeat' split
  · exact request_entriesLast (.refl s)
  · exact .of_empty rfl rfl
  · exact (frameEnd_shrinks p s).entriesLast

theorem powerLoss_entriesLast (s : State) : EntriesLast s (powerLoss s) := by
  unfold powerLoss
  split
  · exact .of_empty rfl rfl
  · exact .refl s

/-- Entries join the schedule by admissions only. -/
theorem exec_entries {c : Instr} {s t : State} (h : exec c s = .next t) : EntriesLast s t ∨ ∃ e, Admitted e s t := by
  cases hc : movesEntries c with
  | false => exact .inl (exec_shrinks h hc).entriesLast
  | true =>
    unfold movesEntries at hc
    split at hc
    · cases h; exact .inl (.of_empty rfl rfl)
    · cases h; exact .inl (powerLoss_entriesLast s)
    · cases h; exact .inl (resetnFall_entriesLast s)
    · exact .inl (hubReset_entriesLast h)
    · cases h
      obtain ⟨harmed, hwaiting, -⟩ := settingsLoad_sched _ _ s
      exact .inl (.of_eq harmed hwaiting)
    · cases h
      split <;> exact .inl (.of_eq rfl rfl)
    · cases h; exact .inl (expiry_entriesLast s)
    · cases h; exact .inl (activeEdge_entriesLast _ s)
    · cases h; exact .inl (transition_entriesLast _ _ s)
    · cases h; exact .inl (debounceWindowEnd_entriesLast _ _ s)
    · cases h; exact .inl (request_entriesLast (timeSet_entriesLast _ _ s))
    · cases h; exact request_entries (scheduleAt_entries _ _ s)
    · cases h; exact request_entries (scheduleOnEdge_entries _ _ s)
    · cases h; exact .inl (request_entriesLast (resume_entriesLast _ _ s))
    · cases h
      exact .inl (request_entriesLast (.of_eq (by rw [portLimitsSet_sched]) (by rw [portLimitsSet_sched])))
    · cases hc

/-! ## The due order and the periods -/

/-- R44, on a list in due order. -/
theorem insertArmed_eq_filter (a : Armed) {l : List Armed} (h : l.Pairwise fun x y => x.due ≤ y.due) :
    insertArmed a l = l.filter (fun b => decide (b.due ≤ a.due)) ++ a :: l.filter (fun b => decide (a.due < b.due)) := by
  induction l with
  | nil => rfl
  | cons b l ih =>
    obtain ⟨hb, hl⟩ := List.pairwise_cons.1 h
    unfold insertArmed
    by_cases hle : b.due ≤ a.due
    · simp [hle, Nat.not_lt.2 hle, ih hl]
    · have hbelow : l.filter (fun c => decide (c.due ≤ a.due)) = [] :=
        List.filter_eq_nil_iff.2 fun c hc => by simpa using (Nat.not_le.1 hle).trans_le (hb c hc)
      have habove : l.filter (fun c => decide (a.due < c.due)) = l :=
        List.filter_eq_self.2 fun c hc => by simpa using (Nat.not_le.1 hle).trans_le (hb c hc)
      simp [hle, Nat.not_le.1 hle, hbelow, habove]

theorem exec_keeps_armedSorted {c : Instr} {s t : State} (h : exec c s = .next t) (hs : ArmedSorted s) : ArmedSorted t := by
  rcases exec_entries h with hlast | ⟨e, hadmitted⟩
  · exact hlast.sorted hs
  · exact hadmitted.sorted hs

theorem Admitted.periodsPositive {e : Entry} {s t : State} (h : Admitted e s t) (hs : PeriodsPositive s) : PeriodsPositive t := by
  intro e' he' q hkind
  rcases List.mem_cons.1 (h.lasting.subset (List.mem_map_of_mem he')) with heq | hmem
  · obtain ⟨q', hkind', hperiod⟩ := period_of_lasting heq.symm hkind
    exact hperiod ▸ h.period q' hkind'
  · obtain ⟨e'', he'', heq⟩ := List.mem_map.1 hmem
    obtain ⟨q', hkind', hperiod⟩ := period_of_lasting heq hkind
    exact hperiod ▸ hs e'' he'' q' hkind'

theorem exec_keeps_periodsPositive {c : Instr} {s t : State} (h : exec c s = .next t) (hs : PeriodsPositive s) :
    PeriodsPositive t := by
  rcases exec_entries h with hlast | ⟨e, hadmitted⟩
  · exact hlast.periodsPositive hs
  · exact hadmitted.periodsPositive hs

/-! ## No due left behind -/

theorem DuesAhead_of_armed {s t : State} (hs : DuesAhead s) (harmed : ∀ a ∈ t.sched.armed, a ∈ s.sched.armed)
    (hrun : t.sched.held = false → s.sched.held = false) (hht : t.time.ht = s.time.ht) : DuesAhead t :=
  fun hheld a ha => hht ▸ hs (hrun hheld) a (harmed a ha)

theorem DuesAhead_of_empty {t : State} (h : t.sched.armed = []) : DuesAhead t := fun _ a ha => by simp [h] at ha

theorem Shrinks.duesAhead {s t : State} (h : Shrinks s t) (hs : DuesAhead s) : DuesAhead t :=
  DuesAhead_of_armed hs (fun _ ha => h.armed.subset ha) h.run h.ht

/-- Late expiries leave no due behind, wherever they start from. -/
theorem takeDue_duesAhead (late : Bool) {s : State} (hsorted : ArmedSorted s) (hpos : PeriodsPositive s) :
    DuesAhead (takeDue late s).1 := by
  have hfire := takeDue_fireOnly late s
  intro hheld
  rw [hfire.time]
  exact takeDue_none_due late (.of_periodsPositive (hfire.held ▸ hheld) hsorted hpos)

theorem forwardStep_duesAhead (d : Nat) {s : State} (hsorted : ArmedSorted s) (hpos : PeriodsPositive s) :
    DuesAhead (forwardStep d s) := fun hheld =>
  forwardStep_none_due (.of_periodsPositive ((forwardStep_edgeOnly d s).held ▸ hheld) hsorted hpos)

theorem handOn_duesAhead (pin : Pin) (ed : Edge) (ht : Nat) (epoch : BitVec 16) (locked late : Bool) {s : State}
    (hsorted : ArmedSorted s) (hpos : PeriodsPositive s) : DuesAhead (handOn pin ed ht epoch locked late s) := by
  have hposted := EntriesLast.of_logOnly (postAll_logOnly ⟨.capture pin ed, 0, late, locked, ht, epoch⟩ (subscribers pin ed s) s)
  unfold handOn edgeArrival
  generalize postAll _ _ s = posted at hposted ⊢
  have harmed := hposted.trans (armQueues_entriesLast pin ed ht allPorts posted)
  exact takeDue_duesAhead true (harmed.sorted hsorted) (harmed.periodsPositive hpos)

theorem placeTimed_duesAhead (e : Entry) (due : Nat) {s : State} (hsorted : ArmedSorted s) (hpos : PeriodsPositive s)
    (hperiod : ∀ q, e.kind = .timed (some q) → 0 < q.period) (hs : DuesAhead s) : DuesAhead (placeTimed e due s) := by
  unfold placeTimed
  dsimp only
  split
  · refine takeDue_duesAhead true (armEntry_sorted _ hsorted) fun e' he' q hkind => ?_
    rcases List.mem_cons.1 ((armEntry_lasting ⟨e, due, .lead⟩ s).subset (List.mem_map_of_mem he')) with heq | hmem
    · obtain ⟨q', hkind', hq'⟩ := period_of_lasting heq.symm hkind
      exact hq' ▸ hperiod q' hkind'
    · obtain ⟨e'', he'', heq⟩ := List.mem_map.1 hmem
      obtain ⟨q', hkind', hq'⟩ := period_of_lasting heq hkind
      exact hq' ▸ hpos e'' he'' q' hkind'
  · next hlate =>
    intro hheld a ha
    rcases mem_insertArmed.1 ha with rfl | ha
    · exact Nat.not_le.1 hlate
    · exact hs hheld a ha

theorem request_duesAhead {p : Port} {code : Byte} {s : State} {rule : State → Reply} (hs : DuesAhead s)
    (h : DuesAhead (rule s).state) : DuesAhead (request p code s rule) := by
  rcases request_cases p code s rule with ⟨e, -⟩ | ⟨e, -⟩ <;> rw [e]
  · exact (frameEnd_shrinks p s).duesAhead hs
  · exact (answer_shrinks _ _ _).duesAhead h

section
variable {s : State} (hsorted : ArmedSorted s) (hpos : PeriodsPositive s) (hs : DuesAhead s)
include hsorted hpos hs

theorem expiry_duesAhead : DuesAhead (expiry s) := by
  unfold expiry
  split
  · exact takeDue_duesAhead false hsorted hpos
  · exact hs

theorem edgeInAcquire_duesAhead (e : Int) : DuesAhead (edgeInAcquire e s) := by
  unfold edgeInAcquire
  dsimp only
  repeat' split
  · exact hs
  · exact forwardStep_duesAhead _ hsorted hpos
  · exact (enterState_shrinks_after _ _ s).duesAhead hs
  · exact hs

theorem handleEdge_duesAhead : DuesAhead (handleEdge s) := by
  by_cases h : s.disc.state = .acquire
  · rw [handleEdge_of_acquire h]
    exact edgeInAcquire_duesAhead hsorted hpos hs _
  · exact (handleEdge_shrinks h).duesAhead hs

theorem activeEdge_duesAhead (change : Edge) : DuesAhead (activeEdge change s) := by
  unfold activeEdge
  repeat' split
  · exact handleEdge_duesAhead hsorted hpos hs
  · exact (Shrinks.of_logOnly (occur_logOnly _ _ _ s)).duesAhead hs
  · exact hs

theorem transition_duesAhead (pin : Pin) (level : Level) : DuesAhead (transition pin level s) := by
  unfold transition
  repeat' split
  · exact hs
  · exact hs
  · exact handOn_duesAhead _ _ _ _ _ _ hsorted hpos
  · exact hs
  · exact hs

theorem debounceWindowEnd_duesAhead (pin : Pin) (level : Level) : DuesAhead (debounceWindowEnd pin level s) := by
  unfold debounceWindowEnd
  dsimp only
  repeat' split
  · exact hs
  · exact hs
  · exact handOn_duesAhead _ _ _ _ _ _ hsorted hpos

theorem timeSet_duesAhead (p : Port) (args : List Byte) : DuesAhead (timeSet p args s).state := by
  unfold timeSet
  dsimp only
  repeat' split
  · exact hs
  · exact hs
  · exact hs
  · exact hs
  · exact hs
  · exact hs
  · exact forwardStep_duesAhead _ hsorted hpos

theorem scheduleAt_duesAhead (p : Port) (args : List Byte) : DuesAhead (scheduleAt p args s).state := by
  unfold scheduleAt
  dsimp only
  repeat' split
  · exact hs
  · exact hs
  · exact hs
  · exact hs
  · next a hread _ slot _ =>
    exact placeTimed_duesAhead (a.entry p slot) _ hsorted hpos (fun q hq => readScheduleAt_period hread hq) hs

omit hsorted hpos in
theorem scheduleOnEdge_duesAhead (p : Port) (args : List Byte) : DuesAhead (scheduleOnEdge p args s).state := by
  unfold scheduleOnEdge
  dsimp only
  repeat' split
  all_goals exact hs

theorem resume_duesAhead (p : Port) (args : List Byte) : DuesAhead (resume p args s).state := by
  unfold resume
  repeat' split
  · exact hs
  · exact hs
  · exact hs
  · next t n htake =>
    have hfire := takeDue_duesAhead true (s := { s with sched := { s.sched with held := false } }) hsorted hpos
    rw [htake] at hfire
    exact hfire
  · exact hs

omit hsorted hpos in
theorem resetnFall_duesAhead : DuesAhead (resetnFall s) := by
  unfold resetnFall
  dsimp only
  repeat' split
  · exact hs
  · exact DuesAhead_of_empty rfl
  · exact hs

omit hsorted hpos in
theorem hubReset_duesAhead {p : Port} {args : List Byte} {t : State} (h : exec (.hubReset p args) s = .next t) :
    DuesAhead t := by
  cases h
  repeat' split
  · exact request_duesAhead hs hs
  · exact DuesAhead_of_empty rfl
  · exact hs

omit hsorted hpos in
theorem powerLoss_duesAhead : DuesAhead (powerLoss s) := by
  unfold powerLoss
  split
  · exact DuesAhead_of_empty rfl
  · exact hs

/-- Every command but ADVANCE keeps each ARMED due beyond hub time in RUN (R45). -/
theorem exec_keeps_duesAhead {c : Instr} {t : State} (h : exec c s = .next t) (hadvance : c ≠ .advance) : DuesAhead t := by
  cases hc : movesEntries c with
  | false => exact (exec_shrinks h hc).duesAhead hs
  | true =>
    unfold movesEntries at hc
    split at hc
    · cases h; exact DuesAhead_of_empty rfl
    · cases h; exact powerLoss_duesAhead hs
    · cases h; exact resetnFall_duesAhead hs
    · exact hubReset_duesAhead hs h
    · cases h
      obtain ⟨harmed, -, hheld⟩ := settingsLoad_sched _ _ s
      exact DuesAhead_of_armed hs (by rw [harmed]; exact fun _ => id) (by rw [hheld]; exact id) (by rw [settingsLoad_time])
    · exact absurd rfl hadvance
    · cases h; exact expiry_duesAhead hsorted hpos hs
    · cases h; exact activeEdge_duesAhead hsorted hpos hs _
    · cases h; exact transition_duesAhead hsorted hpos hs _ _
    · cases h; exact debounceWindowEnd_duesAhead hsorted hpos hs _ _
    · cases h; exact request_duesAhead hs (timeSet_duesAhead hsorted hpos hs _ _)
    · cases h; exact request_duesAhead hs (scheduleAt_duesAhead hsorted hpos hs _ _)
    · cases h; exact request_duesAhead hs (scheduleOnEdge_duesAhead hs _ _)
    · cases h; exact request_duesAhead hs (resume_duesAhead hsorted hpos hs _ _)
    · cases h
      refine request_duesAhead hs ?_
      exact DuesAhead_of_armed hs (by rw [portLimitsSet_sched]; exact fun _ => id) (by rw [portLimitsSet_sched]; exact id)
        (by rw [(portLimitsSet_sameCore _ _ s).time])
    · cases hc

end

/-! ## Steps -/

/-- What every command keeps, every step keeps. -/
theorem step_keeps {P : State → Prop} (hqueue : ∀ (s : State) rest, P s → P { s with pending := rest })
    (hexec : ∀ {c : Instr} {s t : State}, exec c s = .next t → P s → P t) {s t : State} (hs : P s) (h : step s = .next t) :
    P t := by
  unfold step at h
  split at h
  · cases h
    exact hs
  · exact hexec h (hqueue _ _ hs)

/-- Settles O24: R44 by `insertArmed_eq_filter`, and the three invariants command by command. -/
theorem armedListStaysInDueOrder : Obligations.ArmedListStaysInDueOrder := by
  refine ⟨fun a l => insertArmed_eq_filter a, fun s t hs h => ?sorted, fun s t hs h => ?periods,
    fun s t c rest hpending hadvance hsorted hpos hs h => ?ahead⟩
  case sorted => exact step_keeps (P := ArmedSorted) (fun _ _ h => h) exec_keeps_armedSorted hs h
  case periods => exact step_keeps (P := PeriodsPositive) (fun _ _ h => h) exec_keeps_periodsPositive hs h
  case ahead =>
    have hexec : exec c { s with pending := rest } = .next t := by
      rw [← h, step, hpending]
    exact exec_keeps_duesAhead (s := { s with pending := rest }) hsorted hpos hs hexec hadvance

end Sys2Proof.Machine
end

section
/-! SUPPORT. Before the settings load after a reset nothing is in the schedule, no pin is claimed and the discipline state is FREERUN
(R16, R70, R90); and what every step keeps of the slots, the tags and the quotas (R38, R39, R172). -/

namespace Sys2Proof.Machine

open Sys2Proof.Safety

/-! ## Before the load -/

theorem EmptyBeforeLoad_of_loaded {t : State} (h : t.load = none) : EmptyBeforeLoad t := fun hne => absurd h hne

theorem Shrinks.emptyBeforeLoad {s t : State} (h : Shrinks s t) (hstate : s.load ≠ none → t.disc.state = s.disc.state)
    (hs : EmptyBeforeLoad s) : EmptyBeforeLoad t := by
  intro hload
  obtain ⟨hlive, hclaims, hfree⟩ := hs (h.load ▸ hload)
  exact ⟨h.entriesLast.live_nil hlive, fun k => h.claims hload k (hclaims k), (hstate (h.load ▸ hload)).trans hfree⟩

/-- A request is taken after the load only (R183). -/
theorem request_emptyBeforeLoad {p : Port} {code : Byte} {s : State} {rule : State → Reply} (h : (rule s).state.load = s.load)
    (hs : EmptyBeforeLoad s) : EmptyBeforeLoad (request p code s rule) := by
  rcases request_cases p code s rule with ⟨e, -⟩ | ⟨e, htakes⟩ <;> rw [e]
  · exact (frameEnd_shrinks p s).emptyBeforeLoad (fun _ => rfl) hs
  · exact EmptyBeforeLoad_of_loaded (h.trans (load_none_of_takesFrames htakes))

section
variable {s : State} (hempty : s.sched.live = [])
include hempty

theorem expiryDue_of_empty : s.expiryDue = false := by
  have harmed : s.sched.armed = [] := by simpa using (List.append_eq_nil_iff.1 hempty).1
  simp [State.expiryDue, harmed]

theorem armOldest_of_empty (pin : Pin) (ed : Edge) (stamp : Nat) (o : Port) : armOldest pin ed stamp o s = s := by
  have hwaiting : s.sched.waiting = [] := (List.append_eq_nil_iff.1 hempty).2
  simp [armOldest, hwaiting, takeFirst]

/-- An edge finds nothing to arm in an empty schedule. -/
theorem edgeArrival_of_empty (pin : Pin) (ed : Edge) (stamp : Nat) : edgeArrival pin ed stamp s = s := by
  have hqueues : ∀ os, armQueues pin ed stamp os s = s := fun os => by
    induction os with
    | nil => rfl
    | cons o os ih => rw [armQueues, armOldest_of_empty hempty, ih]
  rw [edgeArrival, hqueues, takeDue_of_not_due (expiryDue_of_empty hempty)]

theorem handOn_of_empty (pin : Pin) (ed : Edge) (ht : Nat) (epoch : BitVec 16) (locked late : Bool) :
    LogOnly s (handOn pin ed ht epoch locked late s) := by
  have hlog := postAll_logOnly ⟨.capture pin ed, 0, late, locked, ht, epoch⟩ (subscribers pin ed s) s
  unfold handOn
  rwa [edgeArrival_of_empty ((EntriesLast.of_logOnly hlog).live_nil hempty)]

theorem transition_of_empty (pin : Pin) (level : Level) : Shrinks s (transition pin level s) := by
  have hwatch : ∀ w, Shrinks s (setWatch pin w s) := fun w => .of_same rfl rfl rfl rfl fun _ => id
  unfold transition
  repeat' split
  · exact .refl s
  · exact hwatch _
  · exact (Shrinks.of_logOnly (handOn_of_empty (s := setWatch pin _ s) hempty _ _ _ _ _ _)).after (hwatch _)
  · exact hwatch _
  · exact .refl s

theorem debounceWindowEnd_of_empty (pin : Pin) (level : Level) : Shrinks s (debounceWindowEnd pin level s) := by
  have hwatch : ∀ w, Shrinks s (setWatch pin w s) := fun w => .of_same rfl rfl rfl rfl fun _ => id
  unfold debounceWindowEnd
  dsimp only
  repeat' split
  · exact .refl s
  · exact hwatch _
  · exact (Shrinks.of_logOnly (handOn_of_empty (s := setWatch pin _ s) hempty _ _ _ _ _ _)).after (hwatch _)

theorem expiry_of_empty : expiry s = s := by
  simp [expiry, expiryDue_of_empty hempty]

end

/-- An event that touches neither the awaited load nor the discipline state, and that shrinks an empty schedule. -/
theorem emptyBeforeLoad_of_event {s t : State} (hcourse : SameCourse s t) (hshrinks : s.sched.live = [] → Shrinks s t)
    (hs : EmptyBeforeLoad s) : EmptyBeforeLoad t := by
  obtain ⟨hload, profile, seen, hdisc⟩ := hcourse
  intro hne
  obtain ⟨hempty, -, -⟩ := hs (hload ▸ hne)
  exact (hshrinks hempty).emptyBeforeLoad (fun _ => by rw [hdisc]) hs hne

theorem scheduleOnEdge_load (p : Port) (args : List Byte) (s : State) : (scheduleOnEdge p args s).state.load = s.load :=
  (scheduleOnEdge_sameCore p args s).load

theorem timeSet_load (p : Port) (args : List Byte) (s : State) : (timeSet p args s).state.load = s.load :=
  (timeSet_sameCourse p args s).load

/-- The commands that move neither the discipline unit's state nor the awaited load. -/
theorem exec_keeps_emptyBeforeLoad_of_sameCourse {c : Instr} {s t : State} (h : exec c s = .next t)
    (hcourse : SameCourse s t) (hc : movesDiscipline c = false) (hs : EmptyBeforeLoad s) : EmptyBeforeLoad t := by
  cases hmoves : movesEntries c with
  | false => exact emptyBeforeLoad_of_event hcourse (fun _ => exec_shrinks h hmoves) hs
  | true =>
    unfold movesEntries at hmoves
    split at hmoves
    · cases hc
    · cases hc
    · cases hc
    · cases hc
    · cases hc
    · cases h
      split
      · exact hs
      · exact hs
    · cases h; exact emptyBeforeLoad_of_event hcourse (fun hempty => .of_eq (expiry_of_empty hempty)) hs
    · cases hc
    · cases h; exact emptyBeforeLoad_of_event hcourse (fun hempty => transition_of_empty hempty _ _) hs
    · cases h; exact emptyBeforeLoad_of_event hcourse (fun hempty => debounceWindowEnd_of_empty hempty _ _) hs
    · cases h; exact request_emptyBeforeLoad (timeSet_load _ _ s) hs
    · cases h; exact request_emptyBeforeLoad (scheduleAt_fireOnly _ _ s).load hs
    · cases h; exact request_emptyBeforeLoad (scheduleOnEdge_load _ _ s) hs
    · cases h; exact request_emptyBeforeLoad (resume_sameCore _ _ s).load hs
    · cases h; exact request_emptyBeforeLoad (portLimitsSet_sameCore _ _ s).load hs
    · cases hmoves

theorem hubResetAll_emptyBeforeLoad (byRequest : Bool) (s : State) : EmptyBeforeLoad (hubResetAll byRequest s) := by
  refine fun _ => ⟨rfl, fun k => ?_, rfl⟩
  change ((s.pins.map PinCell.hubReset).get k).holder = none
  rw [Tab.get_map]
  rfl

theorem powerOnValues_emptyBeforeLoad (s : State) : EmptyBeforeLoad (powerOnValues s) := by
  refine fun _ => ⟨rfl, fun k => ?_, rfl⟩
  change ((Tab.fill 24 PinCell.reset).get k).holder = none
  rw [Tab.get_fill]
  rfl

theorem settingsLoad_emptyBeforeLoad (levels : BitVec 24) (begun : BitVec 4) {s : State} (hs : EmptyBeforeLoad s) :
    EmptyBeforeLoad (settingsLoad levels begun s) := by
  unfold settingsLoad
  repeat' split
  · exact hs
  · exact EmptyBeforeLoad_of_loaded rfl
  · exact EmptyBeforeLoad_of_loaded (occur_logOnly _ _ _ _).load
  · exact hs

/-- Reference edges and misses are not taken in FREERUN (R16, R20). -/
theorem emptyBeforeLoad_of_reference {s t : State} (hload : t.load = s.load) (hsame : s.disc.state = .freerun → t = s)
    (hs : EmptyBeforeLoad s) : EmptyBeforeLoad t := by
  intro hne
  obtain ⟨-, -, hfree⟩ := hs (hload ▸ hne)
  rw [hsame hfree] at hne ⊢
  exact hs hne

theorem activeEdge_of_freerun {s : State} (h : s.disc.state = .freerun) (change : Edge) : activeEdge change s = s := by
  simp [activeEdge, State.takesEdge, h]

theorem miss_of_freerun {s : State} (h : s.disc.state = .freerun) : miss s = s := by
  simp [miss, State.missDue, h]

/-- Every command keeps the emptiness before the load. -/
theorem exec_keeps_emptyBeforeLoad {c : Instr} {s t : State} (h : exec c s = .next t) (hs : EmptyBeforeLoad s) :
    EmptyBeforeLoad t := by
  cases hc : movesDiscipline c with
  | false => exact exec_keeps_emptyBeforeLoad_of_sameCourse h (exec_sameCourse h hc) hc hs
  | true =>
    unfold movesDiscipline at hc
    split at hc
    · cases h; exact powerOnValues_emptyBeforeLoad s
    · cases h
      unfold powerLoss
      split
      · exact powerOnValues_emptyBeforeLoad s
      · exact hs
    · cases h
      unfold resetnFall
      dsimp only
      repeat' split
      · exact hs
      · exact hubResetAll_emptyBeforeLoad false _
      · exact hs
    · cases h
      repeat' split
      · exact request_emptyBeforeLoad rfl hs
      · exact hubResetAll_emptyBeforeLoad true s
      · exact hs
    · cases h; exact settingsLoad_emptyBeforeLoad _ _ hs
    · cases h; exact emptyBeforeLoad_of_reference (activeEdge_edgeOnly _ s).load (activeEdge_of_freerun · _) hs
    · cases h; exact emptyBeforeLoad_of_reference (miss_shrinks s).load miss_of_freerun hs
    · cases h; exact request_emptyBeforeLoad (refConfigure_sameCore _ _ s).load hs
    · cases hc

/-! ## Slots and tags apart, holdings within the quotas -/

/-- R38, R39, R172: the part of `Safety.SlotsTied` that speaks of the live entries. -/
structure EntriesApart (s : State) : Prop where
  slots : (s.sched.live.map (·.slot)).Nodup
  tags : (s.sched.live.map fun e => (e.owner, e.tag)).Nodup
  holdings : ∀ p, s.sched.holdings p ≤ s.settings.quotas.get p

theorem slotsTied_iff {s : State} :
    SlotsTied s ↔ EntriesApart s ∧ quotasInRange s.settings.quotas = true ∧ EmptyBeforeLoad s := by
  rw [quotasInRange_iff]
  constructor
  · rintro ⟨hslots, htags, hholdings, hsum, hempty⟩
    exact ⟨⟨hslots, htags, hholdings⟩, hsum, hempty⟩
  · rintro ⟨⟨hslots, htags, hholdings⟩, hsum, hempty⟩
    exact ⟨hslots, htags, hholdings, hsum, hempty⟩

/-- Distinct values stay distinct on fewer entries. -/
theorem nodup_map_of_subperm {α β : Type} {f : α → β} {l₁ l₂ : List α} (h : l₁.Subperm l₂) (hl : (l₂.map f).Nodup) :
    (l₁.map f).Nodup := by
  obtain ⟨l, hperm, hsub⟩ := h
  exact (hperm.map f).nodup_iff.1 (hl.sublist (hsub.map f))

theorem slots_lasting (c : Schedule) : c.lasting.map (·.slot) = c.live.map (·.slot) := by
  simp [Schedule.lasting, Function.comp_def]

theorem tags_lasting (c : Schedule) : (c.lasting.map fun e => (e.owner, e.tag)) = c.live.map fun e => (e.owner, e.tag) := by
  simp [Schedule.lasting, Function.comp_def]

theorem holdings_lasting (c : Schedule) (p : Port) : c.holdings p = c.lasting.countP fun e => decide (e.owner = p) := by
  rw [Schedule.holdings, ← List.countP_eq_length_filter, Schedule.lasting, List.countP_map]
  rfl

theorem EntriesApart.of_entriesLast {s t : State} (hs : EntriesApart s) (h : EntriesLast s t)
    (hquotas : t.settings.quotas = s.settings.quotas) : EntriesApart t where
  slots := by
    rw [← slots_lasting]
    exact nodup_map_of_subperm h.lasting (by rw [slots_lasting]; exact hs.slots)
  tags := by
    rw [← tags_lasting]
    exact nodup_map_of_subperm h.lasting (by rw [tags_lasting]; exact hs.tags)
  holdings p := by
    rw [hquotas, holdings_lasting]
    exact (h.lasting.countP_le _).trans (by rw [← holdings_lasting]; exact hs.holdings p)

theorem EntriesApart.of_admitted {e : Entry} {s t : State} (hs : EntriesApart s) (h : Admitted e s t)
    (hquotas : t.settings.quotas = s.settings.quotas) : EntriesApart t where
  slots := by
    rw [← slots_lasting]
    refine nodup_map_of_subperm h.lasting ?_
    rw [List.map_cons, slots_lasting]
    exact List.nodup_cons.2 ⟨by simpa using h.slot, hs.slots⟩
  tags := by
    rw [← tags_lasting]
    refine nodup_map_of_subperm h.lasting ?_
    rw [List.map_cons, tags_lasting]
    exact List.nodup_cons.2 ⟨by simpa using h.tag, hs.tags⟩
  holdings p := by
    rw [hquotas, holdings_lasting]
    refine (h.lasting.countP_le _).trans ?_
    rw [List.countP_cons, ← holdings_lasting]
    by_cases hp : e.owner = p
    · have hquota := h.quota
      rw [hp] at hquota
      simpa [hp] using hquota
    · simpa [hp] using hs.holdings p

theorem EntriesApart.of_empty {t : State} (h : t.sched.live = []) : EntriesApart t :=
  ⟨by simp [h], by simp [h], fun p => by simp [Schedule.holdings, h]⟩

/-! ## The quotas -/

/-- The commands that set the quotas (R172, R176, R182). -/
def setsQuotas : Instr → Bool
  | .powerOn | .powerLoss | .settingsLoad _ | .portLimitsSet _ _ => true
  | _ => false

theorem abandonWrite_quotas (u : SettingsUnit) : u.abandonWrite.quotas = u.quotas := by
  unfold SettingsUnit.abandonWrite
  split <;> rfl

theorem hubResetAll_quotas (byRequest : Bool) (s : State) : (hubResetAll byRequest s).settings.quotas = s.settings.quotas :=
  abandonWrite_quotas s.settings

theorem request_quotas {p : Port} {code : Byte} {s : State} {rule : State → Reply}
    (h : (rule s).state.settings = s.settings) : (request p code s rule).settings.quotas = s.settings.quotas := by
  rcases request_cases p code s rule with ⟨e, -⟩ | ⟨e, -⟩ <;> rw [e]
  · rfl
  · rw [answer_settings, h]

theorem timeSet_settings (p : Port) (args : List Byte) (s : State) : (timeSet p args s).state.settings = s.settings := by
  unfold timeSet
  dsimp only
  repeat' split
  · rfl
  · rfl
  · rfl
  · rfl
  · rfl
  · rfl
  · exact (forwardStep_edgeOnly _ s).settings

theorem scheduleOnEdge_settings (p : Port) (args : List Byte) (s : State) :
    (scheduleOnEdge p args s).state.settings = s.settings := by
  unfold scheduleOnEdge
  dsimp only
  repeat' split
  all_goals rfl

theorem resume_settings (p : Port) (args : List Byte) (s : State) : (resume p args s).state.settings = s.settings := by
  unfold resume
  repeat' split
  · rfl
  · rfl
  · rfl
  · next t n htake =>
    have hfire := takeDue_fireOnly true { s with sched := { s.sched with held := false } }
    rw [htake] at hfire
    exact hfire.settings
  · rfl

theorem transition_settings (pin : Pin) (level : Level) (s : State) : (transition pin level s).settings = s.settings := by
  unfold transition
  repeat' split
  · rfl
  · rfl
  · exact (handOn_fireOnly _ _ _ _ _ _ _).settings
  · rfl
  · rfl

theorem debounceWindowEnd_settings (pin : Pin) (level : Level) (s : State) :
    (debounceWindowEnd pin level s).settings = s.settings := by
  unfold debounceWindowEnd
  dsimp only
  repeat' split
  · rfl
  · rfl
  · exact (handOn_fireOnly _ _ _ _ _ _ _).settings

theorem exec_quotas {c : Instr} {s t : State} (h : exec c s = .next t) (hc : setsQuotas c = false) :
    t.settings.quotas = s.settings.quotas := by
  cases hmoves : movesEntries c with
  | false => exact (exec_shrinks h hmoves).quotas
  | true =>
    unfold movesEntries at hmoves
    split at hmoves
    · cases hc
    · cases hc
    · cases h
      unfold resetnFall
      dsimp only
      repeat' split
      · rfl
      · exact hubResetAll_quotas false _
      · rfl
    · cases h
      repeat' split
      · exact request_quotas rfl
      · exact hubResetAll_quotas true s
      · rfl
    · cases hc
    · cases h
      split <;> rfl
    · cases h
      unfold expiry
      split
      · rw [(takeDue_fireOnly false s).settings]
      · rfl
    · cases h; rw [(activeEdge_edgeOnly _ s).settings]
    · cases h; rw [transition_settings]
    · cases h; rw [debounceWindowEnd_settings]
    · cases h; exact request_quotas (timeSet_settings _ _ s)
    · cases h; exact request_quotas (scheduleAt_fireOnly _ _ s).settings
    · cases h; exact request_quotas (scheduleOnEdge_settings _ _ s)
    · cases h; exact request_quotas (resume_settings _ _ s)
    · cases hc
    · cases hmoves

/-! ## The commands that set the quotas -/

/-- The settings of a valid image have quotas in their range (R175). -/
theorem readImage_quotas {bs : List Byte} {w : Settings} (h : readImage bs = some w) : quotasInRange w.quotas = true := by
  unfold readImage at h
  dsimp only at h
  repeat' split at h
  · cases h
  · next hrange =>
    cases h
    simp only [Settings.inRange, Bool.and_eq_true] at hrange
    obtain ⟨⟨⟨⟨⟨hquotas, -⟩, -⟩, -⟩, -⟩, -⟩ := hrange
    exact hquotas
  · cases h
  · cases h

theorem storeImage_quotas {image : StoreImage} {w : Settings} (h : image.settings = some w) :
    quotasInRange w.quotas = true := by
  cases image with
  | bytes bs => exact readImage_quotas h
  | spoiled => cases h

theorem builtin_quotas : quotasInRange (.fill 4 16) = true := by decide

/-- A load comes to an empty schedule, with quotas in their range (R176). -/
theorem settingsLoad_slotsTied (levels : BitVec 24) (begun : BitVec 4) {s : State} (hs : SlotsTied s) :
    SlotsTied (settingsLoad levels begun s) := by
  obtain ⟨hapart, hquotas, hempty⟩ := slotsTied_iff.1 hs
  unfold settingsLoad
  split
  · exact hs
  · next kind hkind =>
    obtain ⟨hlive, -, -⟩ := hempty (by rw [hkind]; exact Option.some_ne_none kind)
    repeat' split
    · next w hw =>
      exact slotsTied_iff.2 ⟨.of_empty hlive, storeImage_quotas hw, EmptyBeforeLoad_of_loaded rfl⟩
    · have hlog := occur_logOnly .storeInvalid none .none (putSettings kind .builtin false levels begun s)
      refine slotsTied_iff.2 ⟨.of_empty ((EntriesLast.of_logOnly hlog).live_nil hlive), ?_, EmptyBeforeLoad_of_loaded hlog.load⟩
      rw [hlog.settings]
      exact builtin_quotas
    · exact hs

theorem powerOnValues_slotsTied (s : State) : SlotsTied (powerOnValues s) :=
  slotsTied_iff.2 ⟨.of_empty rfl, builtin_quotas, powerOnValues_emptyBeforeLoad s⟩

/-- PORT LIMITS SET refuses quotas below the holdings (R172). -/
theorem portLimitsSet_apart (p : Port) (args : List Byte) {s : State} (hs : EntriesApart s)
    (hquotas : quotasInRange s.settings.quotas = true) :
    EntriesApart (portLimitsSet p args s).state ∧ quotasInRange (portLimitsSet p args s).state.settings.quotas = true := by
  unfold portLimitsSet
  dsimp only
  repeat' split
  · exact ⟨hs, hquotas⟩
  · exact ⟨hs, hquotas⟩
  · exact ⟨hs, hquotas⟩
  · exact ⟨hs, hquotas⟩
  · exact ⟨hs, hquotas⟩
  · next hrange _ hfits =>
    simp only [Bool.not_eq_true, Bool.not_eq_false', Bool.and_eq_true] at hrange
    refine ⟨⟨hs.slots, hs.tags, fun q => ?_⟩, hrange.1⟩
    have hq := List.any_eq_false.1 (Bool.eq_false_of_not_eq_true hfits) q (mem_allPorts q)
    exact Nat.not_lt.1 (of_decide_eq_false (Bool.eq_false_of_not_eq_true hq))

theorem portLimitsSet_slotsTied {p : Port} {args : List Byte} {s t : State} (h : exec (.portLimitsSet p args) s = .next t)
    (hs : SlotsTied s) : SlotsTied t := by
  obtain ⟨hapart, hquotas, hempty⟩ := slotsTied_iff.1 hs
  have hkept := exec_keeps_emptyBeforeLoad h hempty
  cases h
  obtain ⟨hapart', hquotas'⟩ := portLimitsSet_apart p args hapart hquotas
  rcases request_cases p 0x62#8 s (portLimitsSet p args) with ⟨e, -⟩ | ⟨e, -⟩ <;> rw [e] at hkept ⊢
  · exact slotsTied_iff.2 ⟨hapart.of_entriesLast (frameEnd_shrinks p s).entriesLast rfl, hquotas, hkept⟩
  · exact slotsTied_iff.2 ⟨hapart'.of_entriesLast (answer_shrinks _ _ _).entriesLast rfl, hquotas', hkept⟩

theorem exec_keeps_slotsTied {c : Instr} {s t : State} (h : exec c s = .next t) (hs : SlotsTied s) : SlotsTied t := by
  cases hc : setsQuotas c with
  | false =>
    obtain ⟨hapart, hquotas, hempty⟩ := slotsTied_iff.1 hs
    have heq := exec_quotas h hc
    refine slotsTied_iff.2 ⟨?_, by rw [heq, hquotas], exec_keeps_emptyBeforeLoad h hempty⟩
    rcases exec_entries h with hlast | ⟨e, hadmitted⟩
    · exact hapart.of_entriesLast hlast heq
    · exact hapart.of_admitted hadmitted heq
  | true =>
    unfold setsQuotas at hc
    split at hc
    · cases h; exact powerOnValues_slotsTied s
    · cases h
      unfold powerLoss
      split
      · exact powerOnValues_slotsTied s
      · exact hs
    · cases h; exact settingsLoad_slotsTied _ _ hs
    · exact portLimitsSet_slotsTied h hs
    · cases hc

/-- Settles O36: `exec_keeps_slotsTied` for the command at the front of the queue. -/
theorem everyStepKeepsSlotsTagsAndQuotas : Obligations.EveryStepKeepsSlotsTagsAndQuotas := fun _ _ hs h =>
  step_keeps (P := SlotsTied) (fun _ _ h => h) exec_keeps_slotsTied hs h

end Sys2Proof.Machine
end

section
/-! SUPPORT. One expiry whole: a complete firing with its drive, continuation, FIRED record, raise and LATE_FIRE, and the LEAD of a PULSE
(R47 to R54); and the expiries of one event in list order (R45, R46, R55). -/

namespace Sys2Proof.Machine

open Sys2Proof.Safety

/-! ## Drives -/

theorem PinCell.drive_eq (rt : Nat) (level : Level) (c : PinCell) : c.drive rt level = drivenCell rt level c := by
  unfold PinCell.drive drivenCell settleNs
  by_cases hout : c.map.dir = .output <;> by_cases hsame : c.driven = some level <;> simp [hout, hsame]

theorem drivenCell_driven {c : PinCell} (h : c.map.dir = .output) (rt : Nat) (level : Level) :
    (drivenCell rt level c).driven = some level := by
  unfold drivenCell
  by_cases hsame : c.driven = some level <;> simp [h, hsame]

theorem upd_drive (pins : Tab 24 PinCell) (k : Pin) (rt : Nat) (level : Level) :
    pins.upd k (PinCell.drive rt level) = pins.upd k (drivenCell rt level) :=
  congrArg (pins.upd k) (funext (PinCell.drive_eq rt level))

/-- The pins after the drive of a complete firing (R47): for a PULSE the trailing level. -/
def Action.firedPins (rt : Nat) (pins : Tab 24 PinCell) : Action → Tab 24 PinCell
  | .set k level => pins.upd k (drivenCell rt level)
  | .pulse k level _ => pins.upd k (drivenCell rt (!level))
  | .notify => pins

theorem expiryDrive_pins_of_not_lead {a : Armed} (h : a.isLead = false) (s : State) :
    (expiryDrive a s).pins = a.entry.action.firedPins s.time.rt s.pins := by
  unfold expiryDrive Action.firedPins
  cases haction : a.entry.action <;> cases hphase : a.phase <;> simp_all [Armed.isLead, upd_drive]

theorem expiryDrive_pins_of_lead {a : Armed} {k : Pin} {level : Level} {width : Nat}
    (haction : a.entry.action = .pulse k level width) (hphase : a.phase = .lead) (s : State) :
    (expiryDrive a s).pins = s.pins.upd k (drivenCell s.time.rt level) := by
  simp [expiryDrive, haction, hphase, upd_drive]

/-! ## Postings to a ring with room -/

theorem post_of_room {p : Port} {s : State} (h : (s.rings.get p).records.length < 32) (r : Record) :
    post p r s = (ringPut p r s).1 := by
  simp [post, (ringPut_append h r).2]

/-- A posting with room raises the class of a crossed mark and nothing else (R127). -/
theorem ringPut_vectors_of_room {p : Port} {s : State} (h : (s.rings.get p).records.length < 32) (r : Record) :
    (ringPut p r s).1.vectors =
      (if (s.rings.get p).records.length = (s.rings.get p).mark then raiseClass p .ringMark s else s).vectors := by
  have hepisode : (s.rings.get p).beginsEpisode = false := by
    simp [Ring.beginsEpisode, h]
  have hcross : (s.rings.get p).crosses = true ↔ (s.rings.get p).records.length = (s.rings.get p).mark := by
    simp only [Ring.crosses, Bool.and_eq_true, decide_eq_true_eq]
    omega
  unfold ringPut
  by_cases hmark : (s.rings.get p).records.length = (s.rings.get p).mark
  · simp only [hepisode, hcross.2 hmark, if_true, if_pos hmark]
    rfl
  · have hnot : (s.rings.get p).crosses = false := by simpa [hmark] using hcross
    simp only [hepisode, hnot, if_neg hmark]
    rfl

theorem post_raisesKept (p : Port) (r : Record) (s : State) : RaisesKept s (post p r s) := by
  unfold post
  dsimp only
  split
  · exact (ringPut_raisesKept p r s).trans (raisesKept_occurrenceKeeps.reportOverflows _ _)
  · exact ringPut_raisesKept p r s

/-! ## The FIRED record -/

/-- The FIRED record of a complete firing (R49). -/
def Armed.fired (a : Armed) (lateness : Nat) (c : Continuation) (s : State) : Record :=
  stamped s (.fired a.entry.tag a.entry.slot a.phase.name (min (a.carriedLateness lateness) 4294967295)
    (min c.skipped 65535) c.remaining) (decide (0 < a.carriedLateness lateness)) s.isLocked

theorem firedRecord_of_unreported {a : Armed} (h : a.entry.report = false) (n : Nat) (c : Continuation) (s : State) :
    firedRecord a n c s = s := by
  simp [firedRecord, h]

theorem firedRecord_of_reported {a : Armed} (h : a.entry.report = true) (n : Nat) (c : Continuation) (s : State) :
    firedRecord a n c s = post a.entry.owner (a.fired n c s) s := by
  simp [firedRecord, h, Armed.fired]

theorem Armed.fired_congr {s v : State} (htime : v.time = s.time) (hdisc : v.disc = s.disc) (a : Armed) (n : Nat)
    (c : Continuation) : a.fired n c v = a.fired n c s := by
  simp [Armed.fired, stamped, State.isLocked, htime, hdisc]

theorem Appended_of_rings {s v t : State} {p : Port} {r : Record} (hrings : v.rings = s.rings) (h : Appended v t p r) :
    Appended s t p r := by
  obtain ⟨later, hlater⟩ := h
  exact ⟨later, by simpa only [asAppended, hrings] using hlater⟩

theorem firedRecord_raisesKept (a : Armed) (n : Nat) (c : Continuation) (s : State) : RaisesKept s (firedRecord a n c s) := by
  unfold firedRecord
  dsimp only
  split
  · exact post_raisesKept _ _ s
  · exact .refl s

/-- The state with the class raise of a mark that the FIRED record crosses (R127). -/
def marked (a : Armed) (s : State) : State :=
  if a.entry.report = true ∧ (s.rings.get a.entry.owner).records.length = (s.rings.get a.entry.owner).mark then
    raiseClass a.entry.owner .ringMark s else s

/-- Only the rings and the vectors tell what a crossed mark raises. -/
theorem marked_congr {s v : State} (hrings : v.rings = s.rings) (hvectors : v.vectors = s.vectors) (a : Armed) :
    (marked a v).vectors = (marked a s).vectors := by
  unfold marked
  rw [hrings]
  split
  · simp only [raiseClass, raiseVec_vectors, hvectors]
  · exact hvectors

section
variable {a : Armed} {s : State} (hroom : a.entry.report = true → (s.rings.get a.entry.owner).records.length < 32)
include hroom

/-- With room the FIRED record begins no overflow episode, and so brings no occurrence (R126, R128). -/
theorem firedRecord_faults_of_room (n : Nat) (c : Continuation) : (firedRecord a n c s).faults = s.faults := by
  cases hreport : a.entry.report with
  | false => rw [firedRecord_of_unreported hreport]
  | true => rw [firedRecord_of_reported hreport, post_of_room (hroom hreport), ringPut_faults]

theorem firedRecord_vectors_of_room (n : Nat) (c : Continuation) : (firedRecord a n c s).vectors = (marked a s).vectors := by
  cases hreport : a.entry.report with
  | false => simp [firedRecord_of_unreported hreport, marked, hreport]
  | true =>
    simp [firedRecord_of_reported hreport, post_of_room (hroom hreport), ringPut_vectors_of_room (hroom hreport), marked, hreport]

end

theorem firedRecord_other_rings {a : Armed} {s : State} (hroom : (s.rings.get a.entry.owner).records.length < 32) (n : Nat)
    (c : Continuation) {q : Port} (hq : q ≠ a.entry.owner) : (firedRecord a n c s).rings.get q = s.rings.get q := by
  cases hreport : a.entry.report with
  | false => rw [firedRecord_of_unreported hreport]
  | true => rw [firedRecord_of_reported hreport, post_of_room hroom, ringPut_rings, Tab.get_set_ne _ _ (Ne.symm hq)]

/-! ## The raise and LATE_FIRE -/

theorem entryRaise_congr {s v : State} (h : v.vectors = s.vectors) (a : Armed) :
    (entryRaise a v).vectors = (entryRaise a s).vectors := by
  unfold entryRaise
  split
  · exact h
  · rw [raiseVec_vectors, raiseVec_vectors, h]

theorem lateFire_of_onTime {a : Armed} {n : Nat} {s : State} (h : n ≤ s.sched.lateThreshold) : lateFire a n s = s := by
  simp [lateFire, Nat.not_lt.2 h]

theorem lateFire_raisesKept (a : Armed) (n : Nat) (s : State) : RaisesKept s (lateFire a n s) := by
  unfold lateFire
  split
  · exact occur_raisesKept _ _ _ s
  · exact .refl s

theorem lateFire_grow (a : Armed) (n : Nat) (s : State) : RecordsGrow s (lateFire a n s) := by
  unfold lateFire
  split
  · exact occur_grow _ _ _ s
  · exact .refl s

/-- LATE_FIRE at the end of an event from `s`, of which `u` has done all but this (R51). -/
theorem lateFire_lateFired {a : Armed} {n : Nat} {first : Prop} {s u : State}
    (hthreshold : u.sched.lateThreshold = s.sched.lateThreshold) (htime : u.time = s.time)
    (hcount : countOf u .lateFire = countOf s .lateFire) (hfirst : first → u.faults = s.faults) :
    LateFired a n first s (lateFire a n u) := by
  unfold lateFire
  rw [hthreshold]
  by_cases hlate : s.sched.lateThreshold < n
  · rw [if_pos hlate]
    refine ⟨?_, fun hf _ hmasked hnone => ?_⟩
    · rw [occur_count (by decide), if_pos rfl, if_pos hlate, hcount]
    · have hfaults := hfirst hf
      rw [occur_captures (by rw [hfaults]; exact hmasked) (by rw [hfaults]; exact hnone), htime]
  · rw [if_neg hlate]
    exact ⟨by rw [if_neg hlate, hcount], fun _ h => absurd h hlate⟩

/-! ## A complete firing -/

/-- The state of a complete firing behind its drive and its continuation (R54). -/
def firedTo (a : Armed) (s : State) : State := continueEntry a (a.continuation s.time.ht) (expiryDrive a s)

theorem firedTo_fireOnly (a : Armed) (s : State) : FireOnly s (firedTo a s) :=
  (expiryDrive_fireOnly a s).trans (continueEntry_fireOnly _ _ _)

theorem expiryDrive_vectors (a : Armed) (s : State) : (expiryDrive a s).vectors = s.vectors := by
  unfold expiryDrive
  split <;> rfl

theorem continueEntry_vectors (a : Armed) (c : Continuation) (s : State) : (continueEntry a c s).vectors = s.vectors := by
  unfold continueEntry
  split <;> rfl

theorem continueEntry_pins (a : Armed) (c : Continuation) (s : State) : (continueEntry a c s).pins = s.pins := by
  unfold continueEntry
  split <;> rfl

/-- Neither the drive nor the continuation touches the reports. -/
theorem firedTo_sameLog (a : Armed) (s : State) : SameLog s (firedTo a s) :=
  ⟨(continueEntry_faults _ _ _).trans (expiryDrive_faults a s), (continueEntry_rings _ _ _).trans (expiryDrive_rings a s),
    (continueEntry_vectors _ _ _).trans (expiryDrive_vectors a s)⟩

/-- The lists of the schedule after the continuation of `e` (R52, R53, R114). -/
def After.place (e : Entry) (armed : List Armed) (waiting : List Entry) : After → List Armed × List Entry
  | .removed => (armed, waiting)
  | .again due kind => (insertArmed ⟨{ e with kind := kind }, due, .lead⟩ armed, waiting)
  | .waits kind => (armed, waiting ++ [{ e with kind := kind }])

theorem firedTo_entries (a : Armed) (s : State) : ((firedTo a s).sched.armed, (firedTo a s).sched.waiting) =
    (a.continuation s.time.ht).after.place a.entry s.sched.armed s.sched.waiting := by
  rw [← expiryDrive_sched a s]
  unfold firedTo continueEntry After.place
  cases (a.continuation s.time.ht).after <;> rfl

/-- The reports of a complete firing behind its continuation: the FIRED record and the raise. -/
def reported (a : Armed) (n : Nat) (s : State) : State :=
  entryRaise a (firedRecord a n (a.continuation s.time.ht) (firedTo a s))

theorem reported_logOnly (a : Armed) (n : Nat) (s : State) : LogOnly (firedTo a s) (reported a n s) :=
  (firedRecord_logOnly a n _ _).trans (entryRaise_logOnly a _)

/-- A complete firing in the order of R54. -/
theorem expireOne_eq {a : Armed} (h : a.isLead = false) (n : Nat) (s : State) :
    expireOne a n s = lateFire a n (reported a n s) := by
  rw [expireOne_of_not_lead h, completeFiring, (expiryDrive_fireOnly a s).time]
  rfl

theorem reported_rings (a : Armed) (n : Nat) (s : State) :
    (reported a n s).rings = (firedRecord a n (a.continuation s.time.ht) (firedTo a s)).rings := entryRaise_rings a _

theorem reported_appended {a : Armed} {s : State} (hreport : a.entry.report = true)
    (hroom : (s.rings.get a.entry.owner).records.length < 32) (n : Nat) :
    Appended s (reported a n s) a.entry.owner (a.fired n (a.continuation s.time.ht) s) := by
  have hfire := firedTo_fireOnly a s
  have hlog := firedTo_sameLog a s
  have hposted := post_appended (p := a.entry.owner) (s := firedTo a s) (by rwa [hlog.rings])
    (a.fired n (a.continuation s.time.ht) (firedTo a s))
  rw [← firedRecord_of_reported hreport, Armed.fired_congr hfire.time hfire.disc] at hposted
  exact Appended_of_rings hlog.rings (Appended_later hposted (.of_eq (entryRaise_rings a _)))

theorem reported_faults_of_room {a : Armed} {s : State}
    (hroom : a.entry.report = true → (s.rings.get a.entry.owner).records.length < 32) (n : Nat) :
    (reported a n s).faults = s.faults := by
  have hlog := firedTo_sameLog a s
  rw [reported, entryRaise_faults, firedRecord_faults_of_room (by rwa [hlog.rings]), hlog.faults]

theorem reported_vectors_of_room {a : Armed} {s : State}
    (hroom : a.entry.report = true → (s.rings.get a.entry.owner).records.length < 32) (n : Nat) :
    (reported a n s).vectors = (entryRaise a (marked a s)).vectors := by
  have hlog := firedTo_sameLog a s
  refine entryRaise_congr ?_ a
  rw [firedRecord_vectors_of_room (by rwa [hlog.rings])]
  exact marked_congr hlog.rings hlog.vectors a

theorem reported_raised {a : Armed} {s : State} {v : VecNo} (hvector : a.entry.vector = some v)
    (henable : (s.vectors.get a.entry.owner).enable = true) (n : Nat) :
    (((reported a n s).vectors.get a.entry.owner).vecs.get v).state ≠ .idle := by
  have hkept := (RaisesKept.of_vectors (firedTo_sameLog a s).vectors).trans
    (firedRecord_raisesKept a n (a.continuation s.time.ht) (firedTo a s))
  simp only [reported, entryRaise, hvector, raiseVec_vectors, Tab.get_upd_self]
  exact NotifyUnit.raise_of_enabled ((hkept a.entry.owner).enable.trans henable) v

theorem reported_count (a : Armed) (n : Nat) (s : State) : countOf (reported a n s) .lateFire = countOf s .lateFire := by
  rw [reported, countOf_of_faults (entryRaise_faults a _), firedRecord_count (by decide),
    countOf_of_faults (firedTo_sameLog a s).faults]

/-- An expiry that is not the LEAD of a PULSE is a complete firing (R47 to R54). -/
theorem expireOne_fires {a : Armed} (h : a.isLead = false) (n : Nat) (s : State) : Fires a n s (expireOne a n s) := by
  have hfire := firedTo_fireOnly a s
  have hreported := reported_logOnly a n s
  have hlate := lateFire_logOnly a n (reported a n s)
  have hall := hreported.trans hlate
  have honTime : n ≤ s.sched.lateThreshold → expireOne a n s = reported a n s := fun hn => by
    rw [expireOne_eq h]
    exact lateFire_of_onTime (by rwa [hreported.lateThreshold, hfire.lateThreshold])
  have hexpire := expireOne_eq h n s
  refine ⟨expireOne_fireOnly a n s, ?drive, ?continues, fun hreport hroom => ?record, fun hreport hn => ?unreported,
    fun hn hroom q hq => ?otherRings, fun hn hroom => ⟨?faults, fun marked hmarked => ?vectors⟩, fun v hvector henable => ?raised,
    ?late⟩
  case drive =>
    rw [expireOne_pins, expiryDrive_pins_of_not_lead h]
    cases a.entry.action <;> rfl
  case continues =>
    rw [hexpire, hall.armed, hall.waiting, firedTo_entries]
    cases (a.continuation s.time.ht).after <;> rfl
  case record =>
    rw [hexpire]
    exact Appended_later (reported_appended hreport hroom n) (lateFire_grow a n _)
  case unreported =>
    rw [honTime hn, reported_rings, firedRecord_of_unreported hreport, (firedTo_sameLog a s).rings]
  case otherRings =>
    have hrings := (firedTo_sameLog a s).rings
    rw [honTime hn, reported_rings, firedRecord_other_rings (by rwa [hrings]) _ _ hq, hrings]
  case faults => rw [honTime hn, reported_faults_of_room hroom]
  case vectors =>
    rw [honTime hn, reported_vectors_of_room hroom, hmarked, entryRaise]
    cases a.entry.vector <;> rfl
  case raised =>
    rw [hexpire]
    exact (lateFire_raisesKept a n _ a.entry.owner).raised v (reported_raised hvector henable n)
  case late =>
    rw [hexpire]
    exact lateFire_lateFired (hreported.lateThreshold.trans hfire.lateThreshold) (hreported.time.trans hfire.time)
      (reported_count a n s) fun hroom => reported_faults_of_room hroom n

/-! ## The LEAD of a PULSE -/

/-- R47, R48, R51. -/
theorem expireOne_leads {a : Armed} {k : Pin} {level : Level} {width : Nat} (haction : a.entry.action = .pulse k level width)
    (hphase : a.phase = .lead) (n : Nat) (s : State) : Leads a k level width n s (expireOne a n s) := by
  have hexpire := expireOne_of_lead haction hphase n s
  have hdrive := expiryDrive_fireOnly a s
  have hsched := expiryDrive_sched a s
  have hlog := lateFire_logOnly a n (reinsertTrail a width n (expiryDrive a s))
  have hfaults : (reinsertTrail a width n (expiryDrive a s)).faults = s.faults := expiryDrive_faults a s
  refine ⟨expireOne_fireOnly a n s, ?drive, ⟨?armed, ?waiting⟩, fun hn => ?silent, ?late⟩
  case drive => rw [expireOne_pins, expiryDrive_pins_of_lead haction hphase]
  case armed =>
    rw [hexpire, hlog.armed, ← hsched]
    rfl
  case waiting =>
    rw [hexpire, hlog.waiting, ← hsched]
    rfl
  case silent =>
    have hon : n ≤ (reinsertTrail a width n (expiryDrive a s)).sched.lateThreshold := hn.trans_eq hdrive.lateThreshold.symm
    rw [hexpire, lateFire_of_onTime hon]
    exact ⟨expiryDrive_rings a s, expiryDrive_vectors a s, hfaults⟩
  case late =>
    rw [hexpire]
    exact lateFire_lateFired hdrive.lateThreshold hdrive.time (countOf_of_faults hfaults _) fun _ => hfaults

/-! ## The expiries of one event -/

theorem isLead_false_iff {a : Armed} :
    a.isLead = false ↔ ∀ k level width, a.entry.action = .pulse k level width → a.phase ≠ .lead := by
  rw [← Bool.not_eq_true, Armed.isLead_iff]
  push Not
  rfl

/-- One head that is due expires, and then the others. -/
theorem ExpiresInOrder_head {late : Bool} {n : Nat} {s t : State} {a : Armed} {rest : List Armed}
    (harmed : s.sched.armed = a :: rest) (hdue : a.due ≤ s.time.ht)
    (h : ExpiresInOrder late n (expireHead late a rest s) t) : ExpiresInOrder late (n + 1) s t := by
  cases hl : a.isLead with
  | true =>
    obtain ⟨k, level, width, haction, hphase⟩ := Armed.isLead_iff.1 hl
    exact .lead n s _ t a rest k level width harmed hdue haction hphase (expireOne_leads haction hphase _ _) h
  | false => exact .fire n s _ t a rest harmed hdue (isLead_false_iff.1 hl) (expireOne_fires hl _ _) h

theorem ExpiresInOrder_of_not_due {s : State} (hrun : s.sched.held = false) (h : s.expiryDue = false) (late : Bool) :
    ExpiresInOrder late 0 s s := by
  refine .done s fun a rest harmed => ?_
  simpa [State.expiryDue, harmed, hrun] using h

theorem expireDue_head_count {s : State} {a : Armed} {rest : List Armed} (harmed : s.sched.armed = a :: rest)
    (hrun : s.sched.held = false) (hdue : a.due ≤ s.time.ht) (late : Bool) (n : Nat) :
    (expireDue late (n + 1) s).2 = (expireDue late n (expireHead late a rest s)).2 + 1 := by
  simp [expireDue, expireHead, latenessOf, harmed, hrun, hdue]

/-- R45, R46, R55: with as many expiries as the event can bring, they are taken in list order until none is due. -/
theorem RunSorted.expiresInOrder {s : State} (h : RunSorted s) (late : Bool) {n : Nat}
    (hfuel : firingsLeft s.time.ht s.sched.armed ≤ n) :
    ExpiresInOrder late (Machine.expireDue late n s).2 s (Machine.expireDue late n s).1 := by
  induction n generalizing s with
  | zero =>
    refine ExpiresInOrder_of_not_due h.run ?_ late
    rcases harmed : s.sched.armed with _ | ⟨a, rest⟩
    · simp [State.expiryDue, harmed]
    · simp only [harmed, firingsLeft, List.map_cons, List.sum_cons, Armed.firingsLeft] at hfuel
      have : s.time.ht < a.due := by split_ifs at hfuel <;> omega
      simp [State.expiryDue, harmed, this]
  | succ n ih =>
    cases hdue : s.expiryDue with
    | false =>
      rw [expireDue_of_not_due hdue]
      exact ExpiresInOrder_of_not_due h.run hdue late
    | true =>
      rcases harmed : s.sched.armed with _ | ⟨a, rest⟩
      · simp [State.expiryDue, harmed] at hdue
      · have ha : a.due ≤ s.time.ht := by simpa [State.expiryDue, harmed, h.run] using hdue
        obtain ⟨hnext, hfewer⟩ := h.expireHead harmed ha late
        have htime := (expireHead_fireOnly late a rest s).time
        rw [expireDue_head harmed h.run ha, expireDue_head_count harmed h.run ha]
        exact ExpiresInOrder_head harmed ha (ih hnext (by rw [htime]; omega))

theorem takeDue_expiresInOrder (late : Bool) {s : State} (h : RunSorted s) :
    ExpiresInOrder late (takeDue late s).2 s (takeDue late s).1 := h.expiresInOrder late (firingsLeft_le _ _)

end Sys2Proof.Machine
end

section
/-! SUPPORT. The catch-up (R52), EXPIRY (R45 to R55), HOLD and the hold notice (R61, R62), and RESUME (R64). -/

namespace Sys2Proof.Machine

open Sys2Proof.Safety

/-! ## The catch-up -/

/-- The cases of R52, with the number of periods that pass. -/
theorem catchUp_eq {b ht k : Nat} {q : Periodic} (hk : (ht - b) / q.period + 1 = k) :
    catchUp b ht q =
      if maxTime < b + k * q.period then ⟨.removed, k - 1, 0⟩
      else if q.repeats = 0 then ⟨.again (b + k * q.period) (.timed (some q)), k - 1, 0⟩
      else if q.repeats ≤ k then ⟨.removed, k - 1, 0⟩
      else ⟨.again (b + k * q.period) (.timed (some { q with repeats := q.repeats - k })), k - 1, q.repeats - k⟩ := by
  subst hk
  rfl

/-- The number of periods to the least due above HT (R52). -/
theorem catchUp_least {b ht period : Nat} (hperiod : 0 < period) (hb : b ≤ ht) :
    ht < b + ((ht - b) / period + 1) * period ∧
      ∀ j, j < (ht - b) / period + 1 → b + j * period ≤ ht := by
  refine ⟨?_, fun j hj => ?_⟩
  · have := Nat.lt_div_mul_add hperiod (a := ht - b)
    rw [Nat.add_mul]
    omega
  · have := (Nat.le_div_iff_mul_le hperiod).1 (Nat.le_of_lt_succ hj)
    omega

/-- Settles O28: the quotient of the catch-up with its least due, and the cases of `catchUp_eq`. -/
theorem catchUpPassesHubTime : Obligations.CatchUpPassesHubTime := by
  intro b ht period repeats hperiod hb
  obtain ⟨habove, hbelow⟩ := catchUp_least hperiod hb
  generalize hk : (ht - b) / period + 1 = k at habove hbelow
  have hk1 : 1 ≤ k := hk ▸ Nat.succ_pos _
  have heq := catchUp_eq (b := b) (ht := ht) (q := ⟨period, repeats⟩) hk
  dsimp only at heq
  rw [maxTime_eq] at heq
  refine ⟨k, hk1, habove, fun j _ hj => hbelow j hj, ?skipped, fun hpast => ?past, fun hfits hendless => ?endless,
    fun hfits hcounted hlast => ?last, fun hfits hmore => ?more⟩
  case skipped =>
    rw [heq]
    split_ifs <;> rfl
  case past => rw [heq, if_pos hpast]
  case endless =>
    subst hendless
    rw [heq, if_neg (Nat.not_lt.2 hfits), if_pos rfl]
    exact ⟨rfl, rfl⟩
  case last =>
    rw [heq, if_neg (Nat.not_lt.2 hfits), if_neg hcounted, if_pos hlast]
    exact ⟨rfl, rfl⟩
  case more =>
    rw [heq, if_neg (Nat.not_lt.2 hfits), if_neg (by omega), if_neg (Nat.not_le.2 hmore)]
    exact ⟨rfl, rfl⟩

/-- No occurrence is skipped where the next due lies ahead already (R52). -/
theorem catchUp_once {b ht : Nat} {q : Periodic} (hb : b ≤ ht) (hnext : ht < b + q.period) (hfits : b + q.period ≤ maxTime) :
    catchUp b ht q = if q.repeats = 1 then ⟨.removed, 0, 0⟩
      else ⟨.again (b + q.period) (.timed (some ⟨q.period, q.repeats - 1⟩)), 0, q.repeats - 1⟩ := by
  have hk : (ht - b) / q.period + 1 = 1 := by
    rw [Nat.div_eq_of_lt (by omega)]
  obtain ⟨period, repeats⟩ := q
  rw [catchUp_eq hk]
  dsimp only at hfits ⊢
  rw [Nat.one_mul, if_neg (Nat.not_lt.2 hfits)]
  rcases repeats with _ | _ | n
  · rfl
  · rfl
  · simp

/-! ## One event of expiries -/

theorem expiryDue_of_ahead {s : State} (h : ∀ a ∈ s.sched.armed, s.time.ht < a.due) : s.expiryDue = false := by
  rcases harmed : s.sched.armed with _ | ⟨a, rest⟩
  · simp [State.expiryDue, harmed]
  · have ha := h a (by simp [harmed])
    simp [State.expiryDue, harmed, ha]

theorem expiryDue_of_due {s : State} (hrun : s.sched.held = false) (hsorted : ArmedSorted s)
    (h : ∃ a ∈ s.sched.armed, a.due ≤ s.time.ht) : s.expiryDue = true := by
  obtain ⟨a, ha, hdue⟩ := h
  unfold ArmedSorted at hsorted
  rcases harmed : s.sched.armed with _ | ⟨b, rest⟩
  · simp [harmed] at ha
  · rw [harmed] at ha hsorted
    have hb : b.due ≤ s.time.ht := by
      rcases List.mem_cons.1 ha with rfl | ha
      · exact hdue
      · exact ((List.pairwise_cons.1 hsorted).1 a ha).trans hdue
    simp [State.expiryDue, harmed, hrun, hb]

section
variable {s : State} {a : Armed} {rest : List Armed} (harmed : s.sched.armed = a :: rest) (hrun : s.sched.held = false)
  (hdue : a.due ≤ s.time.ht) (late : Bool)
include harmed hrun hdue

/-- The head expires, and no other is due behind it. -/
theorem takeDue_once (hnext : (expireHead late a rest s).expiryDue = false) :
    (takeDue late s).1 = expireHead late a rest s := by
  have hfuel : 2 * s.sched.armed.length = 2 * rest.length + 1 + 1 := by
    rw [harmed, List.length_cons]
    omega
  rw [takeDue, hfuel, expireDue_head harmed hrun hdue, expireDue_of_not_due hnext]

/-- The head expires, then the one that it puts back at the head, and no other is due behind them. -/
theorem takeDue_twice {b : Armed} {rest' : List Armed} (hback : (expireHead late a rest s).sched.armed = b :: rest')
    (hbdue : b.due ≤ s.time.ht) (hnext : (expireHead late b rest' (expireHead late a rest s)).expiryDue = false) :
    (takeDue late s).1 = expireHead late b rest' (expireHead late a rest s) := by
  have hfuel : 2 * s.sched.armed.length = 2 * rest.length + 1 + 1 := by
    rw [harmed, List.length_cons]
    omega
  have hfire := expireHead_fireOnly late a rest s
  rw [takeDue, hfuel, expireDue_head harmed hrun hdue,
    expireDue_head hback (hfire.held.trans hrun) (by rwa [hfire.time]), expireDue_of_not_due hnext]

end

/-- A complete firing puts nothing back that is due (R52). -/
theorem expireOne_ahead {a : Armed} {s : State} (hlead : a.isLead = false) (hperiod : PeriodPositive a)
    (hrest : ∀ b ∈ s.sched.armed, s.time.ht < b.due) (n : Nat) :
    ∀ b ∈ (expireOne a n s).sched.armed, s.time.ht < b.due := by
  have harmed : (expireOne a n s).sched.armed = insertBack (a.nextArmed s.time.ht) s.sched.armed := by
    rw [expireOne_of_not_lead hlead, completeFiring_armed, expiryDrive_sched, (expiryDrive_fireOnly a s).time]
  rw [harmed]
  intro b hb
  cases hback : a.nextArmed s.time.ht with
  | none => exact hrest b (by simpa [hback, insertBack] using hb)
  | some c =>
    rw [hback] at hb
    rcases mem_insertArmed.1 hb with rfl | hb
    · exact (Armed.nextArmed_spec hperiod hback).1
    · exact hrest b hb

theorem expireHead_not_due {a : Armed} {rest : List Armed} {s : State} (hlead : a.isLead = false) (hperiod : PeriodPositive a)
    (hrest : ∀ b ∈ rest, s.time.ht < b.due) (late : Bool) : (expireHead late a rest s).expiryDue = false := by
  refine expiryDue_of_ahead ?_
  rw [(expireHead_fireOnly late a rest s).time]
  exact expireOne_ahead (s := { s with sched := { s.sched with armed := rest } }) hlead hperiod hrest _

/-! ## EXPIRY -/

theorem exec_expiry {s : State} (hpowered : s.powered = true) (hdue : s.expiryDue = true) :
    exec .expiry s = .next (takeDue false s).1 := by
  change Host.Outcome.next (expiry s) = _
  simp [expiry, hpowered, hdue]

theorem ExpiresInOrder_pos {late : Bool} {n : Nat} {s t : State} (h : ExpiresInOrder late n s t) (hrun : s.sched.held = false)
    (hdue : s.expiryDue = true) : 0 < n := by
  cases h with
  | done _ hnone =>
    rcases harmed : s.sched.armed with _ | ⟨a, rest⟩
    · simp [State.expiryDue, harmed] at hdue
    · have ha : a.due ≤ s.time.ht := by simpa [State.expiryDue, harmed, hrun] using hdue
      exact absurd ha (Nat.not_le.2 (hnone a rest harmed))
  | lead => exact Nat.succ_pos _
  | fire => exact Nat.succ_pos _

/-- Settles O29: the loop of expiries from a due head on. -/
theorem expiryLeavesNoDueBehind : Obligations.ExpiryLeavesNoDueBehind := by
  intro s hpowered hrun hsorted hpos hsome
  have hdue := expiryDue_of_due hrun hsorted hsome
  have hloop : RunSorted s := .of_periodsPositive hrun hsorted hpos
  have horder := takeDue_expiresInOrder false hloop
  exact ⟨_, _, exec_expiry hpowered hdue, horder, ExpiresInOrder_pos horder hrun hdue, takeDue_fireOnly false s,
    takeDue_none_due false hloop, fun _ => takeDue_other_pins false⟩

/-! ## EXPIRY of a sole entry -/

theorem continuation_of_oneShot {a : Armed} (h : a.entry.kind = .timed none) (ht : Nat) :
    a.continuation ht = ⟨.removed, 0, 0⟩ := by
  simp [Armed.continuation, h]

theorem continuation_of_periodic {a : Armed} {q : Periodic} (h : a.entry.kind = .timed (some q)) (ht : Nat) :
    a.continuation ht = catchUp a.leadDue ht q := by
  simp [Armed.continuation, h]

theorem continuation_of_edge {a : Armed} {pin : Pin} {ed : Edge} {offset rearm : Nat}
    (h : a.entry.kind = .edge pin ed offset rearm) (ht : Nat) : a.continuation ht = rearmed pin ed offset rearm := by
  simp [Armed.continuation, h]

/-- Where an entry stands after a complete firing. -/
theorem Fires_entries {a : Armed} {n : Nat} {s t : State} (h : Fires a n s t) : (t.sched.armed, t.sched.waiting) =
    (a.continuation s.time.ht).after.place a.entry s.sched.armed s.sched.waiting := by
  rw [h.continues]
  cases (a.continuation s.time.ht).after <;> rfl

/-- What the statement O30 asks of the ranges of a sole entry, whose firing is not the LEAD of a PULSE. -/
structure SoleFiring (e : Entry) (due : Nat) (ph : Phase) (ht : Nat) : Prop where
  reached : due ≤ ht
  soon : ht < due + 50
  fits : due ≤ 2 ^ 63
  width : ∀ k level width, e.action = .pulse k level width → 100 ≤ width ∧ width ≤ 4294967295
  phase : ph = .lead ∨ ∃ k level width n, e.action = .pulse k level width ∧ ph = .trail n ∧ width ≤ due
  period : ∀ q, e.kind = .timed (some q) → 1000 ≤ q.period ∧ q.period ≤ 2 ^ 40 ∧
    ∀ k level width, e.action = .pulse k level width → width + 100 ≤ q.period

/-- The lead due of a firing, from which its next due counts (R37, R52). -/
def LeadDueOf (e : Entry) (due : Nat) (ph : Phase) (leadDue : Nat) : Prop :=
  leadDue = due ∧ ph = .lead ∨ ∃ k level width, e.action = .pulse k level width ∧ leadDue + width = due ∧ ph ≠ .lead

theorem leadDue_of_leadDueOf {e : Entry} {due leadDue : Nat} {ph : Phase} (h : LeadDueOf e due ph leadDue) :
    (⟨e, due, ph⟩ : Armed).leadDue = leadDue := by
  rcases h with ⟨rfl, rfl⟩ | ⟨k, level, width, haction, rfl, hphase⟩
  · simp [Armed.leadDue]
  · cases ph with
    | lead => exact absurd rfl hphase
    | trail n => simp [Armed.leadDue, haction]

/-- The occurrences left behind a firing that skips none (R49, R52, R114). -/
def EntryKind.remaining : EntryKind → Nat
  | .timed none => 0
  | .timed (some q) => q.repeats - 1
  | .edge _ _ _ rearm => if rearm = 65535 then 65535 else rearm - 1

section
variable {e : Entry} {due ht : Nat} {ph : Phase} (h : SoleFiring e due ph ht)
include h

theorem SoleFiring.exists_leadDue : ∃ leadDue, LeadDueOf e due ph leadDue := by
  rcases h.phase with hlead | ⟨k, level, width, n, haction, htrail, hwidth⟩
  · exact ⟨due, .inl ⟨rfl, hlead⟩⟩
  · exact ⟨due - width, .inr ⟨k, level, width, haction, by omega, by simp [htrail]⟩⟩

/-- The next occurrence of a sole periodic entry lies ahead and within 64 bits. -/
theorem SoleFiring.next {q : Periodic} (hkind : e.kind = .timed (some q)) {leadDue : Nat} (hlead : LeadDueOf e due ph leadDue) :
    leadDue ≤ ht ∧ ht < leadDue + q.period ∧ leadDue + q.period ≤ maxTime := by
  have hreached := h.reached
  have hsoon := h.soon
  have hfits := h.fits
  obtain ⟨hlow, hhigh, hlong⟩ := h.period q hkind
  have hmax := maxTime_eq
  rcases hlead with ⟨rfl, -⟩ | ⟨k, level, width, haction, hsum, -⟩
  · omega
  · have := hlong k level width haction
    omega

theorem SoleFiring.continuation_periodic {q : Periodic} (hkind : e.kind = .timed (some q)) {leadDue : Nat}
    (hlead : LeadDueOf e due ph leadDue) : (⟨e, due, ph⟩ : Armed).continuation ht =
      if q.repeats = 1 then ⟨.removed, 0, 0⟩
      else ⟨.again (leadDue + q.period) (.timed (some ⟨q.period, q.repeats - 1⟩)), 0, q.repeats - 1⟩ := by
  obtain ⟨hbefore, hnext, hfits⟩ := h.next hkind hlead
  rw [continuation_of_periodic hkind, leadDue_of_leadDueOf hlead, catchUp_once hbefore hnext hfits]

/-- The counts that the FIRED record of a sole entry carries (R49). -/
theorem SoleFiring.counts : ((⟨e, due, ph⟩ : Armed).continuation ht).skipped = 0 ∧
    ((⟨e, due, ph⟩ : Armed).continuation ht).remaining = e.kind.remaining := by
  rcases hkind : e.kind with (_ | q) | ⟨pin, ed, offset, rearm⟩
  · rw [continuation_of_oneShot hkind]
    exact ⟨rfl, rfl⟩
  · obtain ⟨leadDue, hlead⟩ := h.exists_leadDue
    rw [h.continuation_periodic hkind hlead]
    by_cases hone : q.repeats = 1 <;> simp [hone, EntryKind.remaining]
  · rw [continuation_of_edge hkind]
    unfold rearmed EntryKind.remaining
    split_ifs <;> simp_all

theorem SoleFiring.periodPositive : PeriodPositive ⟨e, due, ph⟩ := fun q hkind =>
  Nat.lt_of_lt_of_le (by decide) (h.period q hkind).1

end

/-- The LEAD of a sole PULSE puts its TRAIL on the list, which is not due yet (R48). -/
theorem expiry_of_soleLead {e : Entry} {due : Nat} {s : State} (harmed : s.sched.armed = [⟨e, due, .lead⟩])
    (hrun : s.sched.held = false) (h : SoleFiring e due .lead s.time.ht) {k : Pin} {level : Level} {width : Nat}
    (haction : e.action = .pulse k level width) :
    (takeDue false s).1 = expireHead false ⟨e, due, .lead⟩ [] s ∧
      (expireHead false ⟨e, due, .lead⟩ [] s).sched.armed = [⟨e, due + width, .trail 0⟩] := by
  have hleads := expireOne_leads (a := ⟨e, due, .lead⟩) haction rfl 0 { s with sched := { s.sched with armed := [] } }
  obtain ⟨hlow, hhigh⟩ := h.width k level width haction
  have hfits := h.fits
  have hsoon := h.soon
  have hback : (expireHead false ⟨e, due, .lead⟩ [] s).sched.armed = [⟨e, due + width, .trail 0⟩] := by
    have hmin : min (due + width) (2 ^ 64 - 1) = due + width := by omega
    have htrail := hleads.trail.1
    rw [hmin] at htrail
    exact htrail
  refine ⟨takeDue_once harmed hrun h.reached false (expiryDue_of_ahead ?_), hback⟩
  rw [(expireHead_fireOnly false _ [] s).time, hback]
  simp only [List.mem_singleton, forall_eq]
  omega

/-- A complete firing of a sole entry. -/
theorem expiry_of_soleFiring {e : Entry} {due : Nat} {ph : Phase} {s : State} (harmed : s.sched.armed = [⟨e, due, ph⟩])
    (hrun : s.sched.held = false) (h : SoleFiring e due ph s.time.ht) (hlead : (⟨e, due, ph⟩ : Armed).isLead = false) :
    (takeDue false s).1 = expireHead false ⟨e, due, ph⟩ [] s :=
  takeDue_once harmed hrun h.reached false (expireHead_not_due hlead h.periodPositive (by simp) false)

section
variable {e : Entry} {due : Nat} {ph : Phase} {s t : State} (hsole : SoleFiring e due ph s.time.ht)
  (hfires : Fires ⟨e, due, ph⟩ 0 { s with sched := { s.sched with armed := [] } } t)
include hsole hfires

omit hsole in
theorem soleFiring_oneShot (hkind : e.kind = .timed none) : t.sched.armed = [] ∧ t.sched.waiting = s.sched.waiting := by
  have hentries := Fires_entries hfires
  rw [continuation_of_oneShot hkind] at hentries
  exact Prod.mk.inj hentries

theorem soleFiring_periodic {q : Periodic} (hkind : e.kind = .timed (some q)) {leadDue : Nat}
    (hlead : LeadDueOf e due ph leadDue) : t.sched.waiting = s.sched.waiting ∧
      t.sched.armed = if q.repeats = 1 then [] else
        [⟨{ e with kind := .timed (some ⟨q.period, q.repeats - 1⟩) }, leadDue + q.period, .lead⟩] := by
  have hentries := Fires_entries hfires
  rw [hsole.continuation_periodic hkind hlead] at hentries
  by_cases hone : q.repeats = 1
  · rw [if_pos hone] at hentries
    obtain ⟨harmed, hwaiting⟩ := Prod.mk.inj hentries
    exact ⟨hwaiting, by rw [harmed, if_pos hone]⟩
  · rw [if_neg hone] at hentries
    obtain ⟨harmed, hwaiting⟩ := Prod.mk.inj hentries
    exact ⟨hwaiting, by rw [harmed, if_neg hone]; rfl⟩

omit hsole in
theorem soleFiring_edge {pin : Pin} {ed : Edge} {offset rearm : Nat} (hkind : e.kind = .edge pin ed offset rearm) :
    t.sched.armed = [] ∧ t.sched.waiting = s.sched.waiting ++ (if rearm = 0 then []
      else [{ e with kind := .edge pin ed offset (if rearm = 65535 then 65535 else rearm - 1) }]) := by
  have hentries := Fires_entries hfires
  rw [continuation_of_edge hkind] at hentries
  unfold rearmed at hentries
  split_ifs at hentries ⊢ <;> simpa [After.place] using hentries

/-- The FIRED record of a sole entry (R49). -/
theorem soleFiring_record (hreport : e.report = true) (hroom : (s.rings.get e.owner).records.length < 32) :
    ∃ lateness, Appended s t e.owner ⟨.fired e.tag e.slot (if ph = .lead then .lead else .trail) lateness 0 e.kind.remaining, 0,
        decide (0 < lateness), decide (s.disc.state = .locked), s.time.ht, s.time.epoch⟩ ∧
      (ph = .lead → lateness = 0) ∧ ∀ n, ph = .trail n → lateness = min n 4294967295 := by
  obtain ⟨hskipped, hremaining⟩ := hsole.counts
  have hrecord := hfires.record hreport hroom
  have hname : ph.name = if ph = .lead then .lead else .trail := by cases ph <;> rfl
  have hpositive : ∀ n, decide (0 < n) = decide (0 < min n 4294967295) := fun n => by
    rw [decide_eq_decide]
    omega
  dsimp only at hrecord
  rw [hskipped, hremaining, hname, hpositive] at hrecord
  refine ⟨_, hrecord, ?_, ?_⟩
  · rintro rfl
    rfl
  · rintro n rfl
    simp [Armed.carriedLateness]

end

/-- An expiry with lateness 0 is no occurrence of LATE_FIRE (R51). -/
theorem LateFired_onTime {a : Armed} {first : Prop} {s t : State} (h : LateFired a 0 first s t) :
    countOf t .lateFire = countOf s .lateFire := by
  rw [h.counted, if_neg (Nat.not_lt_zero _)]

theorem upd_driven {pins : Tab 24 PinCell} {k : Pin} (h : (pins.get k).map.dir = .output) (rt : Nat) (level : Level) :
    ((pins.upd k (drivenCell rt level)).get k).driven = some level := by
  rw [Tab.get_upd_self, drivenCell_driven h]

/-- Settles O30: the LEAD of a PULSE by `expireOne_leads`, every other firing by `expireOne_fires`. -/
theorem expiryOfASoleEntry : Obligations.ExpiryOfASoleEntry := by
  intro e due ph s hpowered hrun harmed hreached hsoon hfits hwidth hphase hperiod
  have hsole : SoleFiring e due ph s.time.ht := ⟨hreached, hsoon, hfits, hwidth, hphase, hperiod⟩
  have hdue : s.expiryDue = true := by simp [State.expiryDue, harmed, hrun, hreached]
  refine ⟨_, exec_expiry hpowered hdue, takeDue_fireOnly false s, ?_⟩
  cases hlead : (⟨e, due, ph⟩ : Armed).isLead with
  | true =>
    obtain ⟨k, level, width, haction, hph⟩ := Armed.isLead_iff.1 hlead
    dsimp only at haction hph
    subst hph
    obtain ⟨htake, hback⟩ := expiry_of_soleLead harmed hrun hsole haction
    have hleads : Leads ⟨e, due, .lead⟩ k level width 0 { s with sched := { s.sched with armed := [] } }
      (expireHead false ⟨e, due, .lead⟩ [] s) := expireOne_leads haction rfl 0 _
    rw [htake]
    have hcount := LateFired_onTime hleads.late
    refine ⟨hcount, fun k' level' hset => ?set, fun k' level' width' hpulse _ => ?lead,
      fun k' level' width' n _ htrail => ?trail, fun hnot => absurd rfl (hnot k level width haction)⟩
    case set =>
      rw [haction] at hset
      cases hset
    case lead =>
      rw [haction] at hpulse
      cases hpulse
      obtain ⟨hrings, hvectors, hfaults⟩ := hleads.silent (Nat.zero_le _)
      refine ⟨fun hout => ?_, hback, hleads.trail.2, hrings, hvectors, hfaults⟩
      rw [hleads.drive]
      exact upd_driven hout _ _
    case trail => cases htrail
  | false =>
    have htake := expiry_of_soleFiring harmed hrun hsole hlead
    have hfires : Fires ⟨e, due, ph⟩ 0 { s with sched := { s.sched with armed := [] } }
      (expireHead false ⟨e, due, ph⟩ [] s) := expireOne_fires hlead 0 _
    have hnot := isLead_false_iff.1 hlead
    rw [htake]
    have hcount := LateFired_onTime hfires.late
    refine ⟨hcount, fun k level hset hout => ?set, fun k level width hpulse hph => absurd hph (hnot _ _ _ hpulse),
      fun k level width n hpulse _ hout => ?trail, fun _ => ⟨hfires, soleFiring_oneShot hfires,
        fun q leadDue hkind hleadDue => ?periodic, fun pin ed offset rearm => soleFiring_edge hfires,
        fun hreport => hfires.unreported hreport (Nat.zero_le _), fun hreport hroom => ?record⟩⟩
    case set =>
      have hdrive := hfires.drive
      rw [hset] at hdrive
      rw [hdrive]
      exact upd_driven hout _ _
    case trail =>
      have hdrive := hfires.drive
      rw [hpulse] at hdrive
      rw [hdrive]
      exact upd_driven hout _ _
    case periodic => exact soleFiring_periodic hsole hfires hkind hleadDue
    case record =>
      obtain ⟨lateness, hrecord, honTime, hlate⟩ := soleFiring_record hsole hfires hreport hroom
      refine ⟨e.kind.remaining, lateness, hrecord, honTime, hlate, ?_⟩
      rcases e.kind with (_ | q) | ⟨pin, ed, offset, rearm⟩ <;> rfl

/-! ## HOLD and the hold notice -/

/-- The pins at a hold of the schedule (R61, R85). -/
def heldPins (s : State) : Tab 24 PinCell := if s.sched.held then s.pins else s.pins.map (PinCell.driveSafe s.time.rt)

theorem heldPins_of_held {s : State} (h : s.sched.held = true) : heldPins s = s.pins := by
  simp [heldPins, h]

theorem heldPins_of_run {s : State} (h : s.sched.held = false) (k : Pin) :
    (heldPins s).get k = drivenCell s.time.rt (s.pins.get k).map.safe (s.pins.get k) := by
  simp [heldPins, h, PinCell.driveSafe, PinCell.drive_eq]

theorem enterHeld_eq (s : State) : enterHeld s = { s with sched := { s.sched with held := true }, pins := heldPins s } := by
  unfold enterHeld
  cases h : s.sched.held with
  | true =>
    rw [heldPins_of_held h, if_pos rfl, ← h]
  | false => simp [heldPins, h, safeDriveAll]

theorem hold_of_args {p : Port} {args : List Byte} (h : args ≠ []) (s : State) : hold p args s = refuse s .badArgument := by
  rw [hold, if_pos (by simpa using h)]

theorem holdsSettings_of_not_holder {p : Port} {s : State} (h : s.settings.holder ≠ some p) : s.holdsSettings p = false := by
  simp [State.holdsSettings, h]

theorem hold_of_not_holder {p : Port} {s : State} (h : s.settings.holder ≠ some p) : hold p [] s = refuse s .notPermitted := by
  simp [hold, holdsSettings_of_not_holder h]

theorem hold_of_holder {p : Port} {s : State} (h : s.settings.holder = some p) : hold p [] s = ok (enterHeld s) [1] := by
  simp [hold, holdsSettings_of_holder h]

theorem exec_holdNotice {s : State} (hpowered : s.powered = true) {n : Nat} (hnotices : s.sched.holdNotices = n + 1) :
    exec .holdNotice s = .next (enterHeld { s with sched := { s.sched with holdNotices := n } }) := by
  change Host.Outcome.next (takeHoldNotice s) = _
  simp [takeHoldNotice, hpowered, hnotices]

/-- Settles O33: `enterHeld_eq` for the request and for the notice. -/
theorem holdDrivesTheSafeLevels : Obligations.HoldDrivesTheSafeLevels := by
  intro s
  refine ⟨fun p htakes => ⟨fun args hargs => ?length, fun hnot => ?claim⟩, fun p htakes hholder => ?hold,
    fun n hpowered hnotices => ?notice⟩
  case length => exact congrArg _ (request_refused htakes (hold_of_args hargs s))
  case claim => exact congrArg _ (request_refused htakes (hold_of_not_holder hnot))
  case hold =>
    have hcarried := request_carried (code := 0x25#8) htakes (hold_of_holder hholder)
    rw [enterHeld_eq] at hcarried
    exact ⟨heldPins s, congrArg Host.Outcome.next hcarried, heldPins_of_held, heldPins_of_run⟩
  case notice =>
    refine ⟨heldPins s, ?_, heldPins_of_held, heldPins_of_run⟩
    rw [exec_holdNotice hpowered hnotices, enterHeld_eq]
    rfl

/-! ## RESUME -/

theorem resume_of_args {p : Port} {args : List Byte} (h : args ≠ []) (s : State) : resume p args s = refuse s .badArgument := by
  rw [resume, if_pos (by simpa using h)]

theorem resume_of_not_holder {p : Port} {s : State} (h : s.settings.holder ≠ some p) :
    resume p [] s = refuse s .notPermitted := by
  simp [resume, holdsSettings_of_not_holder h]

/-- The state that a RESUME returns to RUN, before its expiries (R64). -/
def runAgain (s : State) : State := { s with sched := { s.sched with held := false } }

/-- RESUME by the settings holder (R64). -/
theorem resume_of_holder {p : Port} {s : State} (h : s.settings.holder = some p) : resume p [] s =
    if s.faults.faultnLow then refuse s .faultActive
    else if s.sched.held then ok (takeDue true (runAgain s)).1 [b1 (takeDue true (runAgain s)).2]
    else ok s [0] := by
  simp [resume, holdsSettings_of_holder h, runAgain]

theorem resume_of_fault {p : Port} {s : State} (h : s.settings.holder = some p) (hfault : s.faults.faultnLow = true) :
    resume p [] s = refuse s .faultActive := by
  rw [resume_of_holder h, if_pos hfault]

section
variable {p : Port} {s : State} (h : s.settings.holder = some p) (hfault : s.faults.faultnLow = false)
include h hfault

theorem resume_of_run (hrun : s.sched.held = false) : resume p [] s = ok s [0] := by
  simp [resume_of_holder h, hfault, hrun]

theorem resume_of_held (hheld : s.sched.held = true) :
    resume p [] s = ok (takeDue true (runAgain s)).1 [b1 (takeDue true (runAgain s)).2] := by
  simp [resume_of_holder h, hfault, hheld]

end

/-- Settles O34: the checks of R64 by their branches, and the expiries from the state in RUN on. -/
theorem resumeReturnsToRun : Obligations.ResumeReturnsToRun := by
  intro p s htakes
  refine ⟨fun args hargs => ?length, fun hnot => ?claim, fun hholder hfault => ?fault, fun hholder hfault hrun => ?run,
    fun hholder hfault hheld hsorted hpos => ?held⟩
  case length => exact congrArg _ (request_refused htakes (resume_of_args hargs s))
  case claim => exact congrArg _ (request_refused htakes (resume_of_not_holder hnot))
  case fault => exact congrArg _ (request_refused htakes (resume_of_fault hholder hfault))
  case run => exact congrArg _ (request_carried htakes (resume_of_run hholder hfault hrun))
  case held =>
    have hloop : RunSorted (runAgain s) := .of_periodsPositive rfl hsorted hpos
    refine ⟨_, _, congrArg _ (request_carried htakes (resume_of_held hholder hfault hheld)),
      takeDue_expiresInOrder true hloop, takeDue_fireOnly true _, takeDue_none_due true hloop, fun hahead => ?_⟩
    rw [takeDue_of_not_due (expiryDue_of_ahead (s := runAgain s) hahead)]
    exact ⟨rfl, rfl⟩

end Sys2Proof.Machine
end

section
/-! SUPPORT. CANCEL, ENTRY QUERY and SCHEDULE LIST (R56, R58, R59, R116). -/

namespace Sys2Proof.Machine

open Sys2Proof.Safety

/-! ## The entry of a port with a tag -/

theorem named_iff {p : Port} {tag : Byte} {e : Entry} : e.named p tag = true ↔ e.owner = p ∧ e.tag = tag := by
  simp [Entry.named]

theorem find_of_nodup_map {α β : Type} {f : α → β} {q : α → Bool} {l : List α} {x : α} (hl : (l.map f).Nodup) (hx : x ∈ l)
    (hq : ∀ y, q y = true ↔ f y = f x) : l.find? q = some x := by
  cases hfind : l.find? q with
  | none => exact absurd ((hq x).2 rfl) (List.find?_eq_none.1 hfind x hx)
  | some y =>
    rw [List.inj_on_of_nodup_map hl (List.mem_of_find?_eq_some hfind) hx ((hq y).1 (List.find?_some hfind))]

theorem filter_not_of_nodup_map {α β : Type} [DecidableEq α] {f : α → β} {q : α → Bool} {l : List α} {x : α}
    (hl : (l.map f).Nodup) (hx : x ∈ l) (hq : ∀ y, q y = true ↔ f y = f x) : (l.filter fun y => !q y) = l.erase x := by
  rw [hl.of_map.erase_eq_filter]
  refine List.filter_congr fun y hy => ?_
  have hsame : q y = true ↔ y = x := (hq y).trans ⟨List.inj_on_of_nodup_map hl hy hx, congrArg f⟩
  rw [Bool.eq_iff_iff, Bool.not_eq_true', ← Bool.not_eq_true, hsame, bne_iff_ne]

theorem named_iff_key {p : Port} {tag : Byte} {e : Entry} (howner : e.owner = p) (htag : e.tag = tag) (e' : Entry) :
    e'.named p tag = true ↔ (e'.owner, e'.tag) = (e.owner, e.tag) := by
  rw [named_iff, Prod.mk.injEq, howner, htag]

theorem findArmed_eq_none {p : Port} {tag : Byte} {c : Schedule} (h : ∀ a ∈ c.armed, ¬(a.entry.owner = p ∧ a.entry.tag = tag)) :
    c.findArmed p tag = none :=
  List.find?_eq_none.2 fun a ha hnamed => h a ha (named_iff.1 hnamed)

theorem findWaiting_eq_none {p : Port} {tag : Byte} {c : Schedule} (h : ∀ e ∈ c.waiting, ¬(e.owner = p ∧ e.tag = tag)) :
    c.findWaiting p tag = none :=
  List.find?_eq_none.2 fun e he hnamed => h e he (named_iff.1 hnamed)

section
variable {c : Schedule} (hkeys : (c.live.map fun e => (e.owner, e.tag)).Nodup)
include hkeys

theorem keys_apart : (c.armed.map fun a => (a.entry.owner, a.entry.tag)).Nodup ∧
    (c.waiting.map fun e => (e.owner, e.tag)).Nodup ∧
    ∀ a ∈ c.armed, ∀ e ∈ c.waiting, ¬(e.owner = a.entry.owner ∧ e.tag = a.entry.tag) := by
  rw [Schedule.live, List.map_append, List.map_map, List.nodup_append] at hkeys
  obtain ⟨harmed, hwaiting, hapart⟩ := hkeys
  refine ⟨harmed, hwaiting, fun a ha e he hsame => ?_⟩
  exact hapart _ (List.mem_map_of_mem ha) _ (List.mem_map_of_mem he) (Prod.ext hsame.1.symm hsame.2.symm)

section
variable {a : Armed} {p : Port} {tag : Byte} (ha : a ∈ c.armed) (howner : a.entry.owner = p) (htag : a.entry.tag = tag)
include ha howner htag

theorem findArmed_of_mem : c.findArmed p tag = some a :=
  find_of_nodup_map (keys_apart hkeys).1 ha fun a' => named_iff_key howner htag a'.entry

theorem armed_without : (c.armed.filter fun a => !(a.entry.named p tag)) = c.armed.erase a :=
  filter_not_of_nodup_map (keys_apart hkeys).1 ha fun a' => named_iff_key howner htag a'.entry

theorem waiting_without_armed : (c.waiting.filter fun e => !(e.named p tag)) = c.waiting := by
  obtain ⟨-, -, hapart⟩ := keys_apart hkeys
  refine List.filter_eq_self.2 fun e he => ?_
  rw [Bool.not_eq_true', ← Bool.not_eq_true, named_iff, ← howner, ← htag]
  exact hapart a ha e he

end

section
variable {e : Entry} {p : Port} {tag : Byte} (he : e ∈ c.waiting) (howner : e.owner = p) (htag : e.tag = tag)
include he howner htag

theorem findWaiting_of_mem : c.findWaiting p tag = some e := by
  obtain ⟨-, hwaiting, -⟩ := keys_apart hkeys
  exact find_of_nodup_map hwaiting he (named_iff_key howner htag)

theorem armed_apart_of_waiting : ∀ a ∈ c.armed, ¬(a.entry.owner = p ∧ a.entry.tag = tag) := by
  obtain ⟨-, -, hapart⟩ := keys_apart hkeys
  rintro a ha ⟨hp, ht⟩
  exact hapart a ha e he ⟨howner.trans hp.symm, htag.trans ht.symm⟩

theorem waiting_without : (c.waiting.filter fun e => !(e.named p tag)) = c.waiting.erase e := by
  obtain ⟨-, hwaiting, -⟩ := keys_apart hkeys
  exact filter_not_of_nodup_map hwaiting he (named_iff_key howner htag)

theorem armed_without_waiting : (c.armed.filter fun a => !(a.entry.named p tag)) = c.armed := by
  refine List.filter_eq_self.2 fun a ha => ?_
  rw [Bool.not_eq_true', ← Bool.not_eq_true, named_iff]
  exact armed_apart_of_waiting hkeys he howner htag a ha

end

end

/-! ## CANCEL -/

/-- The pins after a CANCEL of an ARMED entry (R56). -/
def cancelPins (a : Armed) (s : State) : Tab 24 PinCell := (cancelDrive a s).pins

theorem cancelDrive_eq (a : Armed) (s : State) : cancelDrive a s = { s with pins := cancelPins a s } := by
  unfold cancelPins cancelDrive
  split
  · rfl
  · split
    · rfl
    · unfold expiryDrive
      split <;> rfl

theorem cancelPins_undriven {a : Armed} {s : State} (h : a.phase = .lead ∨ s.sched.held = true) : cancelPins a s = s.pins := by
  unfold cancelPins cancelDrive
  rcases h with hlead | hheld
  · rw [hlead]
  · cases a.phase <;> simp [hheld]

theorem cancelPins_driven {a : Armed} {s : State} {n : Nat} {k : Pin} {level : Level} {width : Nat} (hphase : a.phase = .trail n)
    (hrun : s.sched.held = false) (haction : a.entry.action = .pulse k level width) :
    cancelPins a s = s.pins.set k (drivenCell s.time.rt (!level) (s.pins.get k)) := by
  have hlead : a.isLead = false := isLead_false_iff.2 fun _ _ _ _ => by simp [hphase]
  have hdrive : cancelDrive a s = expiryDrive a s := by simp [cancelDrive, hphase, hrun]
  rw [cancelPins, hdrive, expiryDrive_pins_of_not_lead hlead, haction]
  rfl

theorem cancel_of_armed {p : Port} {tag : Byte} {a : Armed} {s : State} (h : s.sched.findArmed p tag = some a) :
    cancel p [tag] s = ok (removeTag p tag (cancelDrive a s)) [b1 a.entry.slot.val, 1, b1 a.phase.code] := by
  simp [cancel, h]

theorem cancel_of_waiting {p : Port} {tag : Byte} {e : Entry} {s : State} (harmed : s.sched.findArmed p tag = none)
    (h : s.sched.findWaiting p tag = some e) : cancel p [tag] s = ok (removeTag p tag s) [b1 e.slot.val, 0, 0] := by
  simp [cancel, harmed, h]

theorem cancel_of_none {p : Port} {tag : Byte} {s : State} (harmed : s.sched.findArmed p tag = none)
    (hwaiting : s.sched.findWaiting p tag = none) : cancel p [tag] s = refuse s .noEntry := by
  simp [cancel, harmed, hwaiting]

theorem find_none_of_live {p : Port} {tag : Byte} {c : Schedule} (h : ∀ e ∈ c.live, ¬(e.owner = p ∧ e.tag = tag)) :
    c.findArmed p tag = none ∧ c.findWaiting p tag = none :=
  ⟨findArmed_eq_none fun _ ha => h _ (List.mem_append_left _ (List.mem_map_of_mem ha)),
    findWaiting_eq_none fun _ he => h _ (List.mem_append_right _ he)⟩

/-- Settles O31: the one entry that the port and the tag name, in each place it may stand. -/
theorem cancelRemovesTheEntry : Obligations.CancelRemovesTheEntry := by
  intro p tag s htakes
  refine ⟨fun hnone => ?none, fun a ha howner htag hkeys => ?armed, fun e he howner htag hkeys => ?waiting⟩
  case none =>
    obtain ⟨harmed, hwaiting⟩ := find_none_of_live hnone
    exact congrArg _ (request_refused htakes (cancel_of_none harmed hwaiting))
  case armed =>
    have hremove : removeTag p tag (cancelDrive a s) =
        { s with sched := { s.sched with armed := s.sched.armed.erase a }, pins := cancelPins a s } := by
      rw [cancelDrive_eq, removeTag, armed_without hkeys ha howner htag, waiting_without_armed hkeys ha howner htag]
    refine ⟨cancelPins a s, ?_, cancelPins_undriven, fun n k level width => cancelPins_driven⟩
    rw [← hremove]
    exact congrArg _ (request_carried htakes (cancel_of_armed (findArmed_of_mem hkeys ha howner htag)))
  case waiting =>
    have hremove : removeTag p tag s = { s with sched := { s.sched with waiting := s.sched.waiting.erase e } } := by
      rw [removeTag, armed_without_waiting hkeys he howner htag, waiting_without hkeys he howner htag]
    rw [← hremove]
    exact congrArg _ (request_carried htakes
      (cancel_of_waiting (findArmed_eq_none (armed_apart_of_waiting hkeys he howner htag)) (findWaiting_of_mem hkeys he howner htag)))

/-! ## ENTRY QUERY and SCHEDULE LIST -/

theorem entryQuery_of_armed {p : Port} {tag : Byte} {a : Armed} {s : State} (h : s.sched.findArmed p tag = some a) :
    entryQuery p [tag] s = ok s (entryData a.entry 1 a.phase.code a.due) := by
  simp [entryQuery, h]

theorem entryQuery_of_waiting {p : Port} {tag : Byte} {e : Entry} {s : State} (harmed : s.sched.findArmed p tag = none)
    (h : s.sched.findWaiting p tag = some e) : entryQuery p [tag] s = ok s (entryData e 0 0 0) := by
  simp [entryQuery, harmed, h]

theorem entryQuery_of_none {p : Port} {tag : Byte} {s : State} (harmed : s.sched.findArmed p tag = none)
    (hwaiting : s.sched.findWaiting p tag = none) : entryQuery p [tag] s = refuse s .noEntry := by
  simp [entryQuery, harmed, hwaiting]

/-- The fields of R203 from the out pin on. -/
theorem entryData_eq (e : Entry) (stateCode phaseCode due : Nat) : entryData e stateCode phaseCode due =
    [b1 e.slot.val, e.tag, b1 e.kind.code, b1 stateCode, b1 phaseCode, b1 e.action.code, b1 e.flags] ++ beN 8 due ++
      queryTail e := by
  obtain ⟨slot, owner, tag, action, kind, report, vector⟩ := e
  unfold entryData queryTail
  simp only [List.append_assoc]
  refine congrArg (_ ++ ·) (congrArg (_ ++ ·) (congrArg₂ (· ++ ·) ?action ?rest))
  case action => cases action <;> rfl
  case rest => rcases kind with (_ | q) | ⟨pin, _ | _, offset, rearm⟩ <;> cases vector <;> simp [edgeCode] <;> rfl

theorem queryTail_length (e : Entry) : (queryTail e).length = 29 := by
  obtain ⟨slot, owner, tag, action, kind, report, vector⟩ := e
  unfold queryTail
  cases action <;> rcases kind with (_ | q) | ⟨pin, ed, offset, rearm⟩ <;> cases vector <;> simp

/-- Settles O32: the one entry that the port and the tag name, and the bytes of `entryData_eq`. -/
theorem entryReadsChangeNothing : Obligations.EntryReadsChangeNothing := by
  intro p s htakes
  refine ⟨fun tag hnone => ?none, fun a ha howner hkeys => ⟨queryTail a.entry, ?armed, rfl, queryTail_length _⟩,
    fun e he howner hkeys => ⟨queryTail e, ?waiting, rfl, queryTail_length _⟩,
    ⟨_, _, congrArg _ (request_carried htakes rfl), rfl, rfl⟩⟩
  case none =>
    obtain ⟨harmed, hwaiting⟩ := find_none_of_live hnone
    exact congrArg _ (request_refused htakes (entryQuery_of_none harmed hwaiting))
  case armed =>
    have hquery := entryQuery_of_armed (findArmed_of_mem hkeys ha howner rfl)
    rw [entryData_eq] at hquery
    exact congrArg _ (request_carried htakes hquery)
  case waiting =>
    have hquery := entryQuery_of_waiting (findArmed_eq_none (armed_apart_of_waiting hkeys he howner rfl))
      (findWaiting_of_mem hkeys he howner rfl)
    rw [entryData_eq] at hquery
    exact congrArg _ (request_carried htakes hquery)

end Sys2Proof.Machine
end

section
/-! SUPPORT. The checks of SCHEDULE AT (R42), with the bytes of its arguments (R41, R203). -/

namespace Sys2Proof.Machine

open Sys2Proof.Safety

/-! ## The fields of an admission, read from its bytes -/

/-- A field counted from the end of a first part. -/
theorem fld_behind {pre xs : List Byte} {off : Nat} (h : pre.length = off) (i len : Nat) :
    fld (pre ++ xs) (off + i) len = fld xs i len := by
  rw [fld_append_right (by omega), h, Nat.add_sub_cancel_left]

theorem fld_beN_append {k n : Nat} (h : n < 256 ^ k) (rest : List Byte) : fld (beN k n ++ rest) 0 k = n := by
  rw [fld_append_left (by simp), fld_beN, Nat.mod_eq_of_lt h]

theorem pinOfCode_mod (k : Pin) : pinOfCode (k.val % 256) = some k := by
  simpa [b1] using pinOfCode_val k

/-- The range of the width of an action (R42). -/
def WidthFits (a : Action) : Prop := ∀ k level width, a = .pulse k level width → 100 ≤ width

theorem readAction_bytes {a : Action} {pre : List Byte} {off : Nat} (hpre : pre.length = off) (rest : List Byte)
    (hwidth : ∀ k level width, a = .pulse k level width → width < 2 ^ 32) :
    readAction a.code (pre ++ (actionBytes a ++ rest)) off = some a ∧ WidthFits a ∨
      readAction a.code (pre ++ (actionBytes a ++ rest)) off = none ∧ ¬WidthFits a := by
  have hpin := fld_behind hpre (xs := actionBytes a ++ rest) 0
  have hlevel := fld_behind hpre (xs := actionBytes a ++ rest) 1
  have hfour := fld_behind hpre (xs := actionBytes a ++ rest) 2
  rw [Nat.add_zero] at hpin
  cases a with
  | set k level =>
    simp only [Action.code, readAction, hpin, hlevel]
    simp [actionBytes, pinOfCode_mod, boolOfCode_bBool, WidthFits]
  | pulse k level width =>
    have hvalue := fld_beN_append (k := 4) (hwidth k level width rfl) rest
    simp only [Action.code, readAction, hpin, hlevel, hfour]
    simp [actionBytes, pinOfCode_mod, boolOfCode_bBool, hvalue, WidthFits]
    omega
  | notify => simp [Action.code, readAction, WidthFits]

/-- The period and the repeats of a SCHEDULE AT (R203). -/
def periodBytes (q : Option Periodic) : List Byte := q.elim [] fun q => beN 8 q.period ++ beN 2 q.repeats

/-- The vector of a SCHEDULE AT (R203). -/
def vectorBytes (v : Option VecNo) : List Byte := v.elim [] fun v => [b1 v.val]

/-- The range of the period for an action (R42). -/
def PeriodFits (a : Action) (q : Periodic) : Prop :=
  1000 ≤ q.period ∧ q.period ≤ 2 ^ 40 ∧ ∀ k level width, a = .pulse k level width → width + 100 ≤ q.period

theorem readPeriodic_present {a : Action} {args : List Byte} {off : Nat} {q : Periodic} (hperiod : fld args off 8 = q.period)
    (hrepeats : fld args (off + 8) 2 = q.repeats) :
    readPeriodic true a args off = some (some q) ∧ PeriodFits a q ∨ readPeriodic true a args off = none ∧ ¬PeriodFits a q := by
  unfold readPeriodic PeriodFits spanLimit
  simp only [hperiod, hrepeats, if_true]
  cases a <;> simp <;> omega

theorem readPeriodic_bytes {a : Action} {q : Option Periodic} {pre : List Byte} {off : Nat} (hpre : pre.length = off)
    (rest : List Byte) (hq : ∀ x, q = some x → x.period < 2 ^ 64 ∧ x.repeats < 2 ^ 16) :
    readPeriodic q.isSome a (pre ++ (periodBytes q ++ rest)) off = some q ∧ (∀ x, q = some x → PeriodFits a x) ∨
      readPeriodic q.isSome a (pre ++ (periodBytes q ++ rest)) off = none ∧ ∃ x, q = some x ∧ ¬PeriodFits a x := by
  cases q with
  | none => exact .inl ⟨rfl, by simp⟩
  | some x =>
    obtain ⟨hperiod, hrepeats⟩ := hq x rfl
    have hfirst : fld (pre ++ (periodBytes (some x) ++ rest)) off 8 = x.period := by
      rw [← Nat.add_zero off, fld_behind hpre, periodBytes, Option.elim_some, List.append_assoc, fld_beN_append hperiod]
    have hsecond : fld (pre ++ (periodBytes (some x) ++ rest)) (off + 8) 2 = x.repeats := by
      rw [fld_behind hpre, periodBytes, Option.elim_some, List.append_assoc, ← Nat.add_zero 8, fld_behind (length_beN 8 _),
        fld_beN_append hrepeats]
    rcases readPeriodic_present (a := a) hfirst hsecond with ⟨hread, hfits⟩ | ⟨hread, hnot⟩
    · exact .inl ⟨hread, fun y hy => Option.some.inj hy ▸ hfits⟩
    · exact .inr ⟨hread, x, rfl, hnot⟩

theorem readVector_bytes {v : Option VecNo} {pre : List Byte} {off : Nat} (hpre : pre.length = off) :
    readVector v.isSome (pre ++ vectorBytes v) off = some v := by
  cases v with
  | none => rfl
  | some v =>
    have hfield : fld (pre ++ vectorBytes (some v)) off 1 = v.val := by
      rw [← Nat.add_zero off, fld_behind hpre]
      simp [vectorBytes, fld, be]
      omega
    simp [readVector, hfield, vecOfCode]

/-! ## The bytes of SCHEDULE AT -/

/-- The flags byte of SCHEDULE AT (R203). -/
def atFlags (q : Option Periodic) (v : Option VecNo) (report : Bool) : Nat := bitAt 0 q.isSome + bitAt 1 v.isSome + bitAt 2 report

theorem atFlags_bits (q : Option Periodic) (v : Option VecNo) (report : Bool) : atFlags q v report < 8 ∧
    hasPeriod (atFlags q v report) = q.isSome ∧ hasVector (atFlags q v report) = v.isSome ∧
      hasReport (atFlags q v report) = report := by
  unfold atFlags
  generalize q.isSome = periodic, v.isSome = vector
  revert periodic vector report
  decide

/-- The first eleven bytes of SCHEDULE AT (R203). -/
def atHead (tag : Byte) (a : Action) (due : Nat) (q : Option Periodic) (report : Bool) (v : Option VecNo) : List Byte :=
  [tag, b1 a.code, b1 (atFlags q v report)] ++ beN 8 due

theorem atBytes_eq (tag : Byte) (a : Action) (due : Nat) (q : Option Periodic) (report : Bool) (v : Option VecNo) :
    atBytes tag a due q report v = atHead tag a due q report v ++ (actionBytes a ++ (periodBytes q ++ vectorBytes v)) := by
  unfold atBytes atHead
  simp only [List.append_assoc]
  cases q <;> cases v <;> rfl

theorem actionLength_code (a : Action) : actionLength a.code = some (actionBytes a).length := by
  cases a <;> rfl

section
variable {tag : Byte} {a : Action} {due : Nat} {q : Option Periodic} {report : Bool} {v : Option VecNo}

theorem atHead_length : (atHead tag a due q report v).length = 11 := by
  simp [atHead]

theorem atBytes_tag : fld (atBytes tag a due q report v) 0 1 = tag.toNat := fld_cons_zero _ _

theorem atBytes_code : fld (atBytes tag a due q report v) 1 1 = a.code := by
  have hfield : fld (atBytes tag a due q report v) 1 1 = (b1 a.code).toNat := (fld_cons_succ _ _ 0 1).trans (fld_cons_zero _ _)
  rw [hfield]
  cases a <;> rfl

theorem atBytes_flags : fld (atBytes tag a due q report v) 2 1 = atFlags q v report := by
  obtain ⟨hflags, -⟩ := atFlags_bits q v report
  have hfield : fld (atBytes tag a due q report v) 2 1 = (b1 (atFlags q v report)).toNat :=
    (fld_cons_succ _ _ 1 1).trans ((fld_cons_succ _ _ 0 1).trans (fld_cons_zero _ _))
  rw [hfield, b1, BitVec.toNat_ofNat, Nat.mod_eq_of_lt (by omega)]

theorem atBytes_due (h : due < 2 ^ 64) : fld (atBytes tag a due q report v) 3 8 = due := by
  rw [atBytes_eq, atHead, List.append_assoc]
  exact (fld_behind rfl 0 8).trans (fld_beN_append h _)

theorem atBytes_length : scheduleAtLength (atBytes tag a due q report v) = some (atBytes tag a due q report v).length := by
  obtain ⟨-, hperiod, hvector, -⟩ := atFlags_bits q v report
  rw [scheduleAtLength, atBytes_code, atBytes_flags, hperiod, hvector, actionLength_code, atBytes_eq]
  simp only [List.length_append, atHead_length, Option.map_some, Option.some.injEq]
  cases q <;> cases v <;> simp [periodBytes, vectorBytes] <;> omega

theorem reportOf_flags : reportOf a (atFlags q v report) = (report || decide (a = .notify)) := by
  obtain ⟨-, -, -, hreport⟩ := atFlags_bits q v report
  cases a <;> simp [reportOf, hreport]

/-- Check 3 of R42 on the bytes of a SCHEDULE AT: the three parts that follow the first eleven bytes, in turn. -/
theorem readScheduleAt_bytes : readScheduleAt (atBytes tag a due q report v) =
    (readAction a.code (atBytes tag a due q report v) 11).bind fun action =>
      (readPeriodic q.isSome action (atBytes tag a due q report v) (11 + (actionBytes a).length)).map fun periodic =>
        ⟨tag, action, .timed periodic, reportOf action (atFlags q v report), v⟩ := by
  obtain ⟨hflags, hperiod, hvector, -⟩ := atFlags_bits q v report
  have hpre : (atHead tag a due q report v ++ (actionBytes a ++ periodBytes q)).length =
      11 + (actionBytes a).length + (if q.isSome then 10 else 0) := by
    cases q <;> simp [atHead_length, periodBytes]
    omega
  have hread := readVector_bytes (v := v) hpre
  rw [List.append_assoc, List.append_assoc, ← atBytes_eq] at hread
  simp only [readScheduleAt, atBytes_code, atBytes_flags, atBytes_tag, hperiod, hvector, actionLength_code, hread, hflags, if_true,
    b1_toNat, Option.bind_eq_bind, Option.bind_some]
  congr 1
  funext action
  cases readPeriodic q.isSome action (atBytes tag a due q report v) (11 + (actionBytes a).length) <;> rfl

theorem atBytes_action (hwidth : ∀ k level width, a = .pulse k level width → width < 2 ^ 32) :
    readAction a.code (atBytes tag a due q report v) 11 = some a ∧ WidthFits a ∨
      readAction a.code (atBytes tag a due q report v) 11 = none ∧ ¬WidthFits a := by
  rw [atBytes_eq]
  exact readAction_bytes atHead_length _ hwidth

theorem atBytes_periodic (hq : ∀ x, q = some x → x.period < 2 ^ 64 ∧ x.repeats < 2 ^ 16) :
    readPeriodic q.isSome a (atBytes tag a due q report v) (11 + (actionBytes a).length) = some q ∧
        (∀ x, q = some x → PeriodFits a x) ∨
      readPeriodic q.isSome a (atBytes tag a due q report v) (11 + (actionBytes a).length) = none ∧
        ∃ x, q = some x ∧ ¬PeriodFits a x := by
  have hpre : (atHead tag a due q report v ++ actionBytes a).length = 11 + (actionBytes a).length := by simp [atHead_length]
  rw [atBytes_eq, ← List.append_assoc]
  exact readPeriodic_bytes hpre _ hq

theorem atInRange_iff (hwidth : ∀ k level width, a = .pulse k level width → width < 2 ^ 32)
    (hq : ∀ x, q = some x → x.period < 2 ^ 64 ∧ x.repeats < 2 ^ 16) : AtInRange a q ↔
      WidthFits a ∧ ∀ x, q = some x → PeriodFits a x := by
  refine ⟨fun ⟨hw, hp⟩ => ⟨fun k level width h => (hw k level width h).1, fun x hx => ?_⟩,
    fun ⟨hw, hp⟩ => ⟨fun k level width h => ⟨hw k level width h, ?_⟩, fun x hx => ?_⟩⟩
  · obtain ⟨hlow, hhigh, -, hlong⟩ := hp x hx
    exact ⟨hlow, hhigh, hlong⟩
  · exact Nat.le_of_lt_succ (hwidth k level width h)
  · obtain ⟨hlow, hhigh, hlong⟩ := hp x hx
    exact ⟨hlow, hhigh, Nat.le_of_lt_succ (hq x hx).2, hlong⟩

theorem readScheduleAt_outOfRange (hwidth : ∀ k level width, a = .pulse k level width → width < 2 ^ 32)
    (hq : ∀ x, q = some x → x.period < 2 ^ 64 ∧ x.repeats < 2 ^ 16) (h : ¬AtInRange a q) :
    readScheduleAt (atBytes tag a due q report v) = none := by
  rw [atInRange_iff hwidth hq] at h
  rw [readScheduleAt_bytes]
  rcases atBytes_action (tag := tag) (due := due) (q := q) (report := report) (v := v) hwidth with
    ⟨haction, hlong⟩ | ⟨haction, -⟩
  · rcases atBytes_periodic (tag := tag) (a := a) (due := due) (report := report) (v := v) hq with
      ⟨-, hfits⟩ | ⟨hperiodic, -⟩
    · exact absurd ⟨hlong, hfits⟩ h
    · rw [haction, Option.bind_some, hperiodic]
      rfl
  · rw [haction]
    rfl

theorem readScheduleAt_inRange (h : AtInRange a q) :
    readScheduleAt (atBytes tag a due q report v) = some ⟨tag, a, .timed q, report || decide (a = .notify), v⟩ := by
  obtain ⟨hw, hp⟩ := h
  have hwidth : ∀ k level width, a = .pulse k level width → width < 2 ^ 32 :=
    fun k level width h => Nat.lt_succ_of_le (hw k level width h).2
  have hq : ∀ x, q = some x → x.period < 2 ^ 64 ∧ x.repeats < 2 ^ 16 := fun x hx => by
    obtain ⟨-, hhigh, hrepeats, -⟩ := hp x hx
    omega
  obtain ⟨hlong, hfits⟩ := (atInRange_iff hwidth hq).1 ⟨hw, hp⟩
  rw [readScheduleAt_bytes]
  rcases atBytes_action (tag := tag) (due := due) (q := q) (report := report) (v := v) hwidth with
    ⟨haction, -⟩ | ⟨-, hshort⟩
  · rcases atBytes_periodic (tag := tag) (a := a) (due := due) (report := report) (v := v) hq with
      ⟨hperiodic, -⟩ | ⟨-, x, hx, hnot⟩
    · rw [haction, Option.bind_some, hperiodic, reportOf_flags]
      rfl
    · exact absurd (hfits x hx) hnot
  · exact absurd hlong hshort

end

/-! ## The ranges of any argument bytes -/

/-- The fields that an action code calls for are in range (R42). -/
theorem readAction_eq_some {code : Nat} {args : List Byte} {off : Nat} {a : Action} (h : readAction code args off = some a) :
    (code ≠ 2 → fld args off 1 < 24 ∧ fld args (off + 1) 1 < 2) ∧
      (code = 1 → 100 ≤ fld args (off + 2) 4 ∧ ∃ k level, a = .pulse k level (fld args (off + 2) 4)) := by
  unfold readAction at h
  split at h
  · simp only [Option.bind_eq_bind, Option.bind_eq_some_iff] at h
    obtain ⟨k, hpin, level, hlevel, -⟩ := h
    exact ⟨fun _ => ⟨pinOfCode_eq_some hpin, boolOfCode_eq_some hlevel⟩, by simp⟩
  · simp only [Option.bind_eq_bind, Option.bind_eq_some_iff, Option.ite_none_right_eq_some, Option.some.injEq] at h
    obtain ⟨k, hpin, level, hlevel, hlong, rfl⟩ := h
    exact ⟨fun _ => ⟨pinOfCode_eq_some hpin, boolOfCode_eq_some hlevel⟩, fun _ => ⟨hlong, k, level, rfl⟩⟩
  · simp
  · cases h

theorem readVector_eq_some {args : List Byte} {off : Nat} {v : Option VecNo} (h : readVector true args off = some v) :
    fld args off 1 < 8 := by
  rw [readVector, if_pos rfl, Option.map_eq_some_iff] at h
  obtain ⟨w, hcode, -⟩ := h
  unfold vecOfCode at hcode
  split at hcode
  · assumption
  · cases hcode

theorem readScheduleAt_ranges {args : List Byte} {a : Admission} {n : Nat} (hlength : actionLength (fld args 1 1) = some n)
    (h : readScheduleAt args = some a) : fld args 2 1 < 8 ∧ (fld args 1 1 ≠ 2 → fld args 11 1 < 24 ∧ fld args 12 1 < 2) ∧
      (fld args 1 1 = 1 → 100 ≤ fld args 13 4) ∧
      (fld args 2 1 % 2 = 1 → 1000 ≤ fld args (11 + n) 8 ∧ fld args (11 + n) 8 ≤ 2 ^ 40 ∧
        (fld args 1 1 = 1 → fld args 13 4 + 100 ≤ fld args (11 + n) 8)) ∧
      (fld args 2 1 / 2 % 2 = 1 → fld args (11 + n + (if fld args 2 1 % 2 = 1 then 10 else 0)) 1 < 8) := by
  simp only [readScheduleAt, Option.bind_eq_bind, Option.bind_eq_some_iff, Option.ite_none_right_eq_some, hasPeriod, hasVector,
    hlength, Option.some.injEq, decide_eq_true_eq] at h
  obtain ⟨action, haction, _, rfl, periodic, hperiodic, vector, hvector, hflags, -⟩ := h
  obtain ⟨hcodes, hpulse⟩ := readAction_eq_some haction
  refine ⟨hflags, hcodes, fun hcode => (hpulse hcode).1, fun hperiod => ?_, fun hpresent => ?_⟩
  · rw [decide_eq_true hperiod] at hperiodic
    rcases readPeriodic_eq_some hperiodic with ⟨hfalse, -⟩ | ⟨-, -, hlow, hhigh, hlong⟩
    · cases hfalse
    · refine ⟨hlow, hhigh, fun hcode => ?_⟩
      obtain ⟨-, k, level, hpulse⟩ := hpulse hcode
      exact hlong k level _ hpulse
  · rw [decide_eq_true hpresent] at hvector
    exact readVector_eq_some hvector

theorem scheduleAtLength_eq_some {args : List Byte} {n : Nat} (h : actionLength (fld args 1 1) = some n) : scheduleAtLength args =
    some (11 + n + (if fld args 2 1 % 2 = 1 then 10 else 0) + (if fld args 2 1 / 2 % 2 = 1 then 1 else 0)) := by
  simp [scheduleAtLength, h, hasPeriod, hasVector]

/-! ## The checks of R42, in order -/

section
variable {p : Port} {args : List Byte} {s : State}

theorem scheduleAt_of_length (h : scheduleAtLength args ≠ some args.length) : scheduleAt p args s = refuse s .badArgument :=
  if_pos h

variable (hlength : scheduleAtLength args = some args.length)
include hlength

theorem scheduleAt_of_time (h : 2 ^ 62 ≤ fld args 3 8) : scheduleAt p args s = refuse s .badTime := by
  rw [scheduleAt, if_neg (not_not.2 hlength), if_pos (show timeLimit ≤ fld args 3 8 from h)]

variable (hdue : fld args 3 8 < 2 ^ 62)
include hdue

theorem scheduleAt_of_unread (h : readScheduleAt args = none) : scheduleAt p args s = refuse s .badArgument := by
  rw [scheduleAt, if_neg (not_not.2 hlength), if_neg (show ¬timeLimit ≤ fld args 3 8 from Nat.not_le.2 hdue), h]

theorem scheduleAt_of_refused {a : Admission} {st : Status} (hread : readScheduleAt args = some a)
    (h : admissionChecks p a s = .error st) : scheduleAt p args s = refuse s st := by
  rw [scheduleAt, if_neg (not_not.2 hlength), if_neg (show ¬timeLimit ≤ fld args 3 8 from Nat.not_le.2 hdue), hread]
  dsimp only
  rw [h]

theorem scheduleAt_of_admitted {a : Admission} {slot : Slot} (hread : readScheduleAt args = some a)
    (h : admissionChecks p a s = .ok slot) :
    scheduleAt p args s = ok (placeTimed (a.entry p slot) (fld args 3 8) s) [b1 slot.val] := by
  rw [scheduleAt, if_neg (not_not.2 hlength), if_neg (show ¬timeLimit ≤ fld args 3 8 from Nat.not_le.2 hdue), hread]
  dsimp only
  rw [h]

end

section
variable {p : Port} {a : Admission} {s : State}

theorem admissionChecks_of_wrongDirection {k : Pin} (hpin : a.action.outPin = some k) (hdir : (s.pins.get k).map.dir ≠ .output) :
    admissionChecks p a s = .error .wrongDirection := by
  simp [admissionChecks, hpin, State.isOut, hdir]

variable (hdir : ∀ k, a.action.outPin = some k → (s.pins.get k).map.dir = .output)
include hdir

theorem admissionChecks_of_notOwner {k : Pin} (hpin : a.action.outPin = some k) (hholder : (s.pins.get k).holder ≠ some p) :
    admissionChecks p a s = .error .notOwner := by
  simp [admissionChecks, hpin, State.isOut, hdir k hpin, State.holdsPin, hholder]

variable (hholder : ∀ k, a.action.outPin = some k → (s.pins.get k).holder = some p)
include hholder

theorem admissionChecks_of_claimed : admissionChecks p a s = admissionChecks.tagAndSlot p a s := by
  cases hpin : a.action.outPin with
  | none => simp [admissionChecks, hpin]
  | some k => simp [admissionChecks, hpin, State.isOut, hdir k hpin, State.holdsPin, hholder k hpin]

theorem admissionChecks_of_tagInUse (htag : ∃ e ∈ s.sched.live, e.owner = p ∧ e.tag = a.tag) :
    admissionChecks p a s = .error .tagInUse := by
  rw [admissionChecks_of_claimed hdir hholder, admissionChecks.tagAndSlot, if_pos (tagLive_iff.2 htag)]

variable (htag : ∀ e ∈ s.sched.live, ¬(e.owner = p ∧ e.tag = a.tag))
include htag

theorem admissionChecks_of_free {slot : Slot} (hfree : s.sched.freeSlot = some slot) : admissionChecks p a s =
    if s.settings.quotas.get p ≤ s.sched.holdings p then .error .quota else .ok slot := by
  have hunused : ¬s.sched.tagLive p a.tag = true := fun h => by
    obtain ⟨e, he, hsame⟩ := tagLive_iff.1 h
    exact htag e he hsame
  rw [admissionChecks_of_claimed hdir hholder, admissionChecks.tagAndSlot, if_neg hunused, hfree]

theorem admissionChecks_of_full (hfull : ∀ sl : Slot, ∃ e ∈ s.sched.live, e.slot = sl) :
    admissionChecks p a s = .error .full := by
  have hunused : ¬s.sched.tagLive p a.tag = true := fun h => by
    obtain ⟨e, he, hsame⟩ := tagLive_iff.1 h
    exact htag e he hsame
  rw [admissionChecks_of_claimed hdir hholder, admissionChecks.tagAndSlot, if_neg hunused, freeSlot_eq_none_iff.2 hfull]

theorem admissionChecks_of_quota (hfree : ∃ sl : Slot, ∀ e ∈ s.sched.live, e.slot ≠ sl)
    (hquota : s.settings.quotas.get p ≤ s.sched.holdings p) : admissionChecks p a s = .error .quota := by
  obtain ⟨sl, hsl⟩ := hfree
  cases hfree : s.sched.freeSlot with
  | none =>
    obtain ⟨e, he, hslot⟩ := freeSlot_eq_none_iff.1 hfree sl
    exact absurd hslot (hsl e he)
  | some slot => rw [admissionChecks_of_free hdir hholder htag hfree, if_pos hquota]

end

theorem admissionChecks_of_admissible {p : Port} {a : Admission} {slot : Slot} {s : State}
    (h : Admissible p a.tag a.action slot s) : admissionChecks p a s = .ok slot := by
  obtain ⟨hpin, htag, hslot, hlowest, hquota⟩ := h
  rw [admissionChecks_of_free (fun k hk => (hpin k hk).1) (fun k hk => (hpin k hk).2) htag (freeSlot_eq_some_iff.2 ⟨hslot, hlowest⟩),
    if_neg (Nat.not_le.2 hquota)]

/-- Settles O26: the checks by their branches, with the ranges of any argument bytes and of the bytes of an entry. -/
theorem scheduleAtChecksInOrder : Obligations.ScheduleAtChecksInOrder := by
  refine ⟨fun p args s htakes => ⟨fun hlength => ?length, fun n hn hlength => ⟨fun hdue => ?time, fun hdue hrange => ?range⟩⟩,
    fun p tag a due q report v s htakes hbytes => ⟨fun hdue hrange hwidth hq => ?bytes, fun st hst => ?checks⟩⟩
  case length =>
    refine congrArg _ (request_refused htakes (scheduleAt_of_length fun heq => ?_))
    cases hn : actionLength (fld args 1 1) with
    | none => simp [scheduleAtLength, hn] at heq
    | some n => exact hlength n hn (Option.some.inj (heq.symm.trans (scheduleAtLength_eq_some hn)))
  case time =>
    exact congrArg _ (request_refused htakes (scheduleAt_of_time ((scheduleAtLength_eq_some hn).trans (congrArg some hlength.symm)) hdue))
  case range =>
    refine congrArg _ (request_refused htakes
      (scheduleAt_of_unread ((scheduleAtLength_eq_some hn).trans (congrArg some hlength.symm)) hdue ?_))
    refine Option.eq_none_iff_forall_ne_some.2 fun a hread => ?_
    obtain ⟨hflags, hcodes, hwidth, hperiod, hvector⟩ := readScheduleAt_ranges hn hread
    rcases hrange with hbad | ⟨hcode, hbad⟩ | ⟨hcode, hbad⟩ | ⟨hpresent, hbad⟩ | ⟨hpresent, hbad⟩
    · omega
    · have := hcodes hcode
      omega
    · have := hwidth hcode
      omega
    · obtain ⟨hlow, hhigh, hlong⟩ := hperiod hpresent
      omega
    · exact absurd hbad (Nat.not_le.2 (hvector hpresent))
  case bytes =>
    exact congrArg _ (request_refused htakes (scheduleAt_of_unread atBytes_length (by rwa [atBytes_due hbytes])
      (readScheduleAt_outOfRange hwidth hq hrange)))
  case checks =>
    refine congrArg _ (request_refused htakes ?_)
    rcases hst with ⟨rfl, hdue⟩ | ⟨hdue, hrange, hst⟩
    · exact scheduleAt_of_time atBytes_length (by rwa [atBytes_due hbytes])
    · refine scheduleAt_of_refused atBytes_length (by rwa [atBytes_due hbytes]) (readScheduleAt_inRange hrange) ?_
      rcases hst with ⟨rfl, k, hpin, hbad⟩ | ⟨hdir, ⟨rfl, k, hpin, hbad⟩ | ⟨hholder, ⟨rfl, hused⟩ | ⟨htag, hst⟩⟩⟩
      · exact admissionChecks_of_wrongDirection hpin hbad
      · exact admissionChecks_of_notOwner hdir hpin hbad
      · exact admissionChecks_of_tagInUse hdir hholder hused
      · rcases hst with ⟨rfl, hfull⟩ | ⟨hfree, rfl, hquota⟩
        · exact admissionChecks_of_full hdir hholder htag hfull
        · exact admissionChecks_of_quota hdir hholder htag hfree hquota

end Sys2Proof.Machine
end

section
/-! SUPPORT. The admission of SCHEDULE AT (R43): where it waits, and where it fires late. -/

namespace Sys2Proof.Machine

open Sys2Proof.Safety

theorem insertArmed_head {a : Armed} {l : List Armed} (h : ∀ b ∈ l, a.due < b.due) : insertArmed a l = a :: l := by
  cases l with
  | nil => rfl
  | cons b rest => exact if_neg (Nat.not_le.2 (h b List.mem_cons_self))

theorem placeTimed_waits {e : Entry} {due : Nat} {s : State} (h : s.sched.held = true ∨ s.time.ht < due) :
    placeTimed e due s = armEntry ⟨e, due, .lead⟩ s := by
  unfold placeTimed
  dsimp only
  split
  next hdue =>
    have hheld : (armEntry ⟨e, due, .lead⟩ s).sched.held = true := h.resolve_right (Nat.not_lt.2 hdue)
    rw [takeDue_of_not_due (expiryDue_of_held hheld)]
  next => rfl

/-! ## The late firing at the admission (R43, R46) -/

section
variable {e : Entry} {due : Nat} {s : State} (hdue : due ≤ s.time.ht) (hrun : s.sched.held = false)
  (hahead : ∀ b ∈ s.sched.armed, s.time.ht < b.due)
include hdue hrun hahead

omit hrun in
theorem armEntry_head : (armEntry ⟨e, due, .lead⟩ s).sched.armed = ⟨e, due, .lead⟩ :: s.sched.armed :=
  insertArmed_head fun b hb => Nat.lt_of_le_of_lt hdue (hahead b hb)

/-- The entry is the head, so it is the one that expires. -/
theorem placeTimed_once (hnext : (expireOne ⟨e, due, .lead⟩ (s.time.ht - due) s).expiryDue = false) :
    placeTimed e due s = expireOne ⟨e, due, .lead⟩ (s.time.ht - due) s :=
  (if_pos hdue).trans (takeDue_once (s := armEntry ⟨e, due, .lead⟩ s) (armEntry_head hdue hahead) hrun hdue true hnext)

/-- An entry that is not a PULSE fires whole. -/
theorem placeTimed_fires (hnot : ∀ k level width, e.action ≠ .pulse k level width)
    (hperiod : PeriodPositive ⟨e, due, .lead⟩) : Fires ⟨e, due, .lead⟩ (s.time.ht - due) s (placeTimed e due s) := by
  have hlead : (⟨e, due, .lead⟩ : Armed).isLead = false := isLead_false_iff.2 fun k level width h => absurd h (hnot k level width)
  rw [placeTimed_once hdue hrun hahead (expiryDue_of_ahead ?_)]
  · exact expireOne_fires hlead _ s
  · rw [(expireOne_fireOnly _ _ s).time]
    exact expireOne_ahead hlead hperiod hahead _

section
variable {k : Pin} {level : Level} {width : Nat} (haction : e.action = .pulse k level width) (hfits : due + width < 2 ^ 64)
include haction hfits

omit hdue hrun hahead in
theorem pulse_trail : (expireOne ⟨e, due, .lead⟩ (s.time.ht - due) s).sched.armed =
    insertArmed ⟨e, due + width, .trail (s.time.ht - due)⟩ s.sched.armed := by
  obtain ⟨htrail, -⟩ := (expireOne_leads (a := ⟨e, due, .lead⟩) haction rfl (s.time.ht - due) s).trail
  have hmin : min (due + width) (2 ^ 64 - 1) = due + width := by omega
  rw [htrail, hmin]

/-- The TRAIL of a PULSE waits where its due lies ahead (R48). -/
theorem placeTimed_lead (hwidth : s.time.ht < due + width) :
    placeTimed e due s = expireOne ⟨e, due, .lead⟩ (s.time.ht - due) s := by
  refine placeTimed_once hdue hrun hahead (expiryDue_of_ahead fun b hb => ?_)
  rw [(expireOne_fireOnly _ _ s).time]
  rw [pulse_trail haction hfits] at hb
  rcases mem_insertArmed.1 hb with rfl | hb
  · exact hwidth
  · exact hahead b hb

/-- The TRAIL of a PULSE fires at the same event where its due has gone by (R46). -/
theorem placeTimed_trail (hperiod : ∀ q, e.kind = .timed (some q) → 0 < q.period) (hwidth : due + width ≤ s.time.ht) {m : State}
    (hm : expireOne ⟨e, due, .lead⟩ (s.time.ht - due) s = m) :
    Fires ⟨e, due + width, .trail (s.time.ht - due)⟩ (s.time.ht - (due + width))
      { m with sched := { m.sched with armed := s.sched.armed } } (placeTimed e due s) := by
  have hlead : (⟨e, due + width, .trail (s.time.ht - due)⟩ : Armed).isLead = false := isLead_false_iff.2 fun _ _ _ _ => by simp
  have htime : m.time = s.time := hm ▸ (expireOne_fireOnly _ _ s).time
  have hback : m.sched.armed = ⟨e, due + width, .trail (s.time.ht - due)⟩ :: s.sched.armed := by
    rw [← hm, pulse_trail haction hfits, insertArmed_head fun b hb => Nat.lt_of_le_of_lt hwidth (hahead b hb)]
  have htake : placeTimed e due s = expireHead true ⟨e, due + width, .trail (s.time.ht - due)⟩ s.sched.armed m := by
    subst hm
    refine (if_pos hdue).trans (takeDue_twice (s := armEntry ⟨e, due, .lead⟩ s) (armEntry_head hdue hahead) hrun hdue true
      hback hwidth (expireHead_not_due hlead hperiod ?_ true))
    rwa [(expireHead_fireOnly _ _ _ _).time]
  have hlate : latenessOf true ⟨e, due + width, .trail (s.time.ht - due)⟩ m = s.time.ht - (due + width) := by
    rw [latenessOf, if_pos rfl, htime]
  rw [htake, expireHead, hlate]
  exact expireOne_fires hlead _ _

end

end

/-- A one-shot SET that fires leaves the schedule, with its level on its pin (R47, R52). -/
theorem Fires_oneShotSet {a : Armed} {k : Pin} {level : Level} {n : Nat} {s u : State} (h : Fires a n s u)
    (haction : a.entry.action = .set k level) (hkind : a.entry.kind = .timed none) (hdir : (s.pins.get k).map.dir = .output) :
    u.sched.armed = s.sched.armed ∧ u.sched.waiting = s.sched.waiting ∧ (u.pins.get k).driven = some level ∧
      ∀ j, j ≠ k → u.pins.get j = s.pins.get j := by
  have hentries := Fires_entries h
  rw [continuation_of_oneShot hkind] at hentries
  obtain ⟨harmed, hwaiting⟩ := Prod.mk.inj hentries
  have hdrive := h.drive
  rw [haction] at hdrive
  dsimp only at hdrive
  rw [hdrive]
  exact ⟨harmed, hwaiting, upd_driven hdir _ _, fun j hj => Tab.get_upd_ne _ _ hj.symm⟩

/-- Settles O25: the checks on the bytes of an entry, and the placing where the entry waits and where it fires late. -/
theorem scheduleAtAdmitsAnEntry : Obligations.ScheduleAtAdmitsAnEntry := by
  intro p tag a due q report v slot s htakes hlimit hrange hadmissible
  have hbytes : fld (atBytes tag a due q report v) 3 8 = due := atBytes_due (by omega)
  have hrule := scheduleAt_of_admitted (p := p) (s := s) (atBytes_length (tag := tag) (a := a) (due := due)) (by rwa [hbytes])
    (readScheduleAt_inRange hrange) (admissionChecks_of_admissible hadmissible)
  rw [hbytes] at hrule
  have hperiod : ∀ x, q = some x → 0 < x.period := fun x hx => Nat.lt_of_lt_of_le (by decide) (hrange.2 x hx).1
  have hpositive : ∀ x, EntryKind.timed q = .timed (some x) → 0 < x.period := fun x hx => hperiod x (EntryKind.timed.inj hx)
  refine ⟨_, _, rfl, congrArg _ (request_carried htakes hrule), placeTimed_fireOnly _ due s, placeTimed_waits,
    fun k level hset hq hdue hrun hahead => ?set, fun hdue hrun hahead => ⟨fun hnot => ?fires, fun k level width hpulse => ?pulse⟩⟩
  case set =>
    have hfires := placeTimed_fires (e := ⟨slot, p, tag, a, .timed q, report || decide (a = .notify), v⟩) hdue hrun hahead
      (by simp [hset]) hpositive
    obtain ⟨hpin, -⟩ := hadmissible
    obtain ⟨hdir, -⟩ := hpin k (by simp [hset, Action.outPin])
    exact Fires_oneShotSet hfires hset (congrArg _ hq) hdir
  case fires => exact placeTimed_fires hdue hrun hahead hnot hpositive
  case pulse =>
    obtain ⟨hwidths, -⟩ := hrange
    obtain ⟨-, hwide⟩ := hwidths k level width hpulse
    have hfits : due + width < 2 ^ 64 := by omega
    exact ⟨_, expireOne_leads (a := ⟨_, due, .lead⟩) hpulse rfl _ s, placeTimed_lead hdue hrun hahead hpulse hfits,
      fun hwidth => placeTimed_trail hdue hrun hahead hpulse hfits hpositive hwidth rfl⟩

end Sys2Proof.Machine
end

section
/-! SUPPORT. Purges and claim losses (R67, R80, R81): the records that they post, the entries that they leave, the pin that they drive. -/

namespace Sys2Proof.Machine

open Sys2Proof.Safety

/-! ## Records posted to a ring with room -/

/-- From `s` to `t` the ring of `p`, which has room, takes plain records with these bodies, and only the class of a crossed mark is
raised (R124, R126, R127). -/
structure PostedInRoom (p : Port) (bodies : List RecordBody) (s t : State) : Prop where
  records : ∃ added, (t.rings.get p).records = (s.rings.get p).records ++ added ∧ added.map (·.body) = bodies ∧
    ∀ r ∈ added, r.late = false ∧ r.locked = decide (s.disc.state = .locked) ∧ r.ht = s.time.ht ∧ r.epoch = s.time.epoch
  mark : (t.rings.get p).mark = (s.rings.get p).mark
  otherRings : ∀ q, q ≠ p → t.rings.get q = s.rings.get q
  faults : t.faults = s.faults
  vectors : (s.rings.get p).records.length + bodies.length ≤ (s.rings.get p).mark ∨
    (s.rings.get p).mark < (s.rings.get p).records.length → t.vectors = s.vectors
  time : t.time = s.time
  disc : t.disc = s.disc

theorem PostedInRoom.of_sameLog {s t : State} (h : SameLog s t) (htime : t.time = s.time) (hdisc : t.disc = s.disc) (p : Port) :
    PostedInRoom p [] s t where
  records := ⟨[], by simp [h.rings]⟩
  mark := by rw [h.rings]
  otherRings _ _ := by rw [h.rings]
  faults := h.faults
  vectors _ := h.vectors
  time := htime
  disc := hdisc

section
variable {p : Port} {bodies bodies' : List RecordBody} {s t u : State}

theorem PostedInRoom.length (h : PostedInRoom p bodies s t) :
    (t.rings.get p).records.length = (s.rings.get p).records.length + bodies.length := by
  obtain ⟨added, hrecords, hbodies, -⟩ := h.records
  rw [hrecords, List.length_append, ← hbodies, List.length_map]

theorem PostedInRoom.trans (h : PostedInRoom p bodies s t) (k : PostedInRoom p bodies' t u) :
    PostedInRoom p (bodies ++ bodies') s u where
  records := by
    obtain ⟨added, hrecords, hbodies, hstamp⟩ := h.records
    obtain ⟨added', hrecords', hbodies', hstamp'⟩ := k.records
    rw [h.time, h.disc] at hstamp'
    refine ⟨added ++ added', by rw [hrecords', hrecords, List.append_assoc], by rw [List.map_append, hbodies, hbodies'], ?_⟩
    exact fun r hr => (List.mem_append.1 hr).elim (hstamp r) (hstamp' r)
  mark := k.mark.trans h.mark
  otherRings q hq := (k.otherRings q hq).trans (h.otherRings q hq)
  faults := k.faults.trans h.faults
  vectors hmark := by
    have hlength := h.length
    rw [List.length_append] at hmark
    rw [k.vectors (by rw [h.mark]; omega), h.vectors (by omega)]
  time := k.time.trans h.time
  disc := k.disc.trans h.disc

theorem PostedInRoom.postedAll (h : PostedInRoom p bodies s t) (k : RecordsGrow t u) : PostedAll s u p bodies := by
  obtain ⟨added, hrecords, hbodies, hstamp⟩ := h.records
  obtain ⟨later, hlater⟩ := k p
  exact ⟨added, later, by rw [hlater, hrecords], hbodies, hstamp⟩

end

theorem post_inRoom {p : Port} {s : State} (hroom : (s.rings.get p).records.length < 32) (body : RecordBody) :
    PostedInRoom p [body] s (post p (plainRecord s body) s) := by
  have hlog := ringPut_logOnly p (plainRecord s body) s
  rw [post_of_room hroom]
  refine ⟨⟨_, (ringPut_append hroom _).1, rfl, ?_⟩, ?_, fun q hq => ?_, ringPut_faults _ _ _, fun hmark => ?_, hlog.time, hlog.disc⟩
  · intro r hr
    rw [List.mem_singleton.1 hr]
    exact ⟨rfl, rfl, rfl, rfl⟩
  · rw [ringPut_rings, Tab.get_set_self, Ring.take]
    split <;> rfl
  · rw [ringPut_rings, Tab.get_set_ne _ _ hq.symm]
  · rw [ringPut_vectors_of_room hroom, if_neg]
    simp only [List.length_singleton] at hmark
    omega

/-! ## A purge -/

/-- The body of a CANCELLED record (R67). -/
def cancelledBody (why : Reason) (e : Entry) : RecordBody := .cancelled e.tag e.slot why

theorem postCancelled_inRoom {p : Port} (why : Reason) {es : List Entry} {s : State} (howner : ∀ e ∈ es, e.owner = p)
    (hroom : (s.rings.get p).records.length + es.length ≤ 32) :
    PostedInRoom p (es.map (cancelledBody why)) s (postCancelled why es s) := by
  induction es generalizing s with
  | nil => exact .of_sameLog ⟨rfl, rfl, rfl⟩ rfl rfl p
  | cons e es ih =>
    obtain ⟨he, hes⟩ := List.forall_mem_cons.1 howner
    rw [List.length_cons] at hroom
    have hpost := post_inRoom (p := p) (s := s) (by omega) (cancelledBody why e)
    have hlength := hpost.length
    rw [List.length_singleton] at hlength
    rw [postCancelled, he]
    exact hpost.trans (ih (s := post p (plainRecord s (cancelledBody why e)) s) hes (by omega))

theorem entriesOnPin_owner {p : Port} {k : Pin} {c : Schedule} : ∀ e ∈ entriesOnPin p k c, e.owner = p := by
  intro e he
  unfold entriesOnPin at he
  have hdrives : e.drives p k = true := (List.mem_append.1 he).elim List.of_mem_filter List.of_mem_filter
  simp only [Entry.drives, Bool.and_eq_true, decide_eq_true_eq] at hdrives
  exact hdrives.1

/-- The schedule without the entries of `p` on a pin, before their CANCELLED records (R67). -/
def withoutEntries (p : Port) (k : Pin) (s : State) : State :=
  { s with sched := { s.sched with
      armed := s.sched.armed.filter fun a => !(a.entry.drives p k)
      waiting := s.sched.waiting.filter fun e => !(e.drives p k) } }

theorem purgePin_eq (p : Port) (k : Pin) (why : Reason) (s : State) :
    purgePin p k why s = postCancelled why (entriesOnPin p k s.sched) (withoutEntries p k s) := rfl

/-- A pin that loses its claim, driven to its safe level (R80). -/
def lostCell (rt : Nat) (c : PinCell) : PinCell := drivenCell rt c.map.safe { c with holder := none }

theorem loseClaim_inRoom {p : Port} {k : Pin} (why : Reason) {s : State}
    (hroom : (s.rings.get p).records.length + (entriesOnPin p k s.sched).length ≤ 32) :
    PostedInRoom p ((entriesOnPin p k s.sched).map (cancelledBody why)) s (loseClaim p k why s) := by
  have hposts := postCancelled_inRoom why (s := withoutEntries p k s) entriesOnPin_owner hroom
  have hbefore := PostedInRoom.of_sameLog (s := s) (t := withoutEntries p k s) ⟨rfl, rfl, rfl⟩ rfl rfl p
  have hafter := PostedInRoom.of_sameLog (s := purgePin p k why s) (t := loseClaim p k why s) ⟨rfl, rfl, rfl⟩ rfl rfl p
  have hall := (hbefore.trans hposts).trans hafter
  rwa [List.nil_append, List.append_nil] at hall

theorem loseClaim_pins (p : Port) (k : Pin) (why : Reason) (s : State) :
    (loseClaim p k why s).pins = s.pins.upd k (lostCell s.time.rt) := by
  have hlog := postCancelled_logOnly why (entriesOnPin p k s.sched) (withoutEntries p k s)
  refine Tab.ext_get fun j => ?_
  simp only [loseClaim, safeDrive_pins, purgePin_eq, hlog.pins, hlog.time, Tab.get_upd, if_true]
  split
  · exact PinCell.drive_eq _ _ _
  · rfl

theorem loseClaim_entries (p : Port) (k : Pin) (why : Reason) (s : State) :
    (loseClaim p k why s).sched.armed = s.sched.armed.filter (fun a => !(a.entry.drives p k)) ∧
      (loseClaim p k why s).sched.waiting = s.sched.waiting.filter fun e => !(e.drives p k) := by
  have hlog := postCancelled_logOnly why (entriesOnPin p k s.sched) (withoutEntries p k s)
  exact ⟨hlog.armed, hlog.waiting⟩

/-! ## PIN RELEASE -/

theorem pinOfCode_of_ge {n : Nat} (h : 24 ≤ n) : pinOfCode n = none := dif_neg (Nat.not_lt.2 h)

theorem pinRelease_of_args {p : Port} {args : List Byte} (h : args.length ≠ 1 ∨ 24 ≤ fld args 0 1) (s : State) :
    pinRelease p args s = refuse s .badArgument := by
  unfold pinRelease
  split
  · rfl
  · next hlength => rw [pinOfCode_of_ge (h.resolve_left hlength)]

theorem pinRelease_pin (p : Port) (k : Pin) (s : State) : pinRelease p [b1 k.val] s =
    if !s.holdsPin p k then refuse s .notOwner
    else ok (loseClaim p k .released s) [b1 k.val, b1 (entriesOnPin p k s.sched).length] := by
  rw [pinRelease, if_neg (by simp), fld_cons_zero, pinOfCode_val]
  rfl

theorem pinRelease_of_not_holder {p : Port} {k : Pin} {s : State} (h : (s.pins.get k).holder ≠ some p) :
    pinRelease p [b1 k.val] s = refuse s .notOwner := by
  rw [pinRelease_pin, if_pos (by simp [State.holdsPin, h])]

theorem pinRelease_of_holder {p : Port} {k : Pin} {s : State} (h : (s.pins.get k).holder = some p) :
    pinRelease p [b1 k.val] s = ok (loseClaim p k .released s) [b1 k.val, b1 (entriesOnPin p k s.sched).length] := by
  rw [pinRelease_pin, if_neg (by simp [State.holdsPin, h])]

theorem entriesOnPin_length (p : Port) (k : Pin) (c : Schedule) : (entriesOnPin p k c).length =
    (c.armed.filter fun a => a.entry.drives p k).length + ((c.waitingOf p).filter fun e => e.drives p k).length := by
  rw [entriesOnPin, List.length_append, List.filter_map, List.length_map]
  rfl

/-- Settles O39: the claim loss of one pin, with the records of its purge where the ring has room. -/
theorem pinReleasePurgesAndDrivesSafe : Obligations.PinReleasePurgesAndDrivesSafe := by
  intro p k s htakes
  refine ⟨fun args hargs => ?args, fun hnot => ?claim, fun hholder => ?released⟩
  case args => exact congrArg _ (request_refused htakes (pinRelease_of_args hargs s))
  case claim => exact congrArg _ (request_refused htakes (pinRelease_of_not_holder hnot))
  case released =>
    obtain ⟨harmed, hwaiting⟩ := loseClaim_entries p k .released s
    refine ⟨_, _, congrArg _ (request_carried htakes (pinRelease_of_holder hholder)), loseClaim_fireOnly p k .released s, harmed,
      hwaiting, entriesOnPin_length p k s.sched, ?pin, fun j hj => ?otherPins, rfl, fun hroom => ?records⟩
    case pin =>
      rw [loseClaim_pins, Tab.get_upd_self]
      rfl
    case otherPins => rw [loseClaim_pins, Tab.get_upd_ne _ _ hj.symm]
    case records =>
      have hposted := loseClaim_inRoom .released hroom
      have hlength := hposted.length
      have hvectors := hposted.vectors
      rw [List.length_map] at hlength hvectors
      exact ⟨hposted.postedAll (.refl _), hlength, hposted.otherRings, hposted.faults, hvectors⟩

end Sys2Proof.Machine
end

section
/-! SUPPORT. The expiry of a lease (R81, R193). -/

namespace Sys2Proof.Machine

open Sys2Proof.Safety

/-! ## The loss of one claim -/

theorem expireClaim_pins (p : Port) (k : Pin) (s : State) : (expireClaim p k s).pins = s.pins.upd k (lostCell s.time.rt) :=
  (post_logOnly _ _ _).pins.trans (loseClaim_pins p k .lease s)

theorem expireClaim_entries (p : Port) (k : Pin) (s : State) :
    (expireClaim p k s).sched.armed = s.sched.armed.filter (fun a => !(a.entry.drives p k)) ∧
      (expireClaim p k s).sched.waiting = s.sched.waiting.filter fun e => !(e.drives p k) := by
  obtain ⟨harmed, hwaiting⟩ := loseClaim_entries p k .lease s
  have hpost := post_logOnly p (plainRecord (loseClaim p k .lease s) (.claimLost (some k))) (loseClaim p k .lease s)
  exact ⟨hpost.armed.trans harmed, hpost.waiting.trans hwaiting⟩

/-- The bodies of the records that the loss of one claim posts (R67, R81). -/
def lostPinRecords (p : Port) (k : Pin) (c : Schedule) : List RecordBody :=
  (entriesOnPin p k c).map (cancelledBody .lease) ++ [.claimLost (some k)]

theorem expireClaim_inRoom {p : Port} {k : Pin} {s : State}
    (hroom : (s.rings.get p).records.length + (lostPinRecords p k s.sched).length ≤ 32) :
    PostedInRoom p (lostPinRecords p k s.sched) s (expireClaim p k s) := by
  simp only [lostPinRecords, List.length_append, List.length_map, List.length_singleton] at hroom
  have hlost := loseClaim_inRoom (k := k) .lease (s := s) (p := p) (by omega)
  have hlength := hlost.length
  rw [List.length_map] at hlength
  exact hlost.trans (post_inRoom (by omega) _)

/-- An entry drives one pin, so the loss of one leaves the entries on the others, in their order. -/
theorem entriesOnPin_of_loss {p : Port} {j k : Pin} (hjk : j ≠ k) {c c' : Schedule}
    (harmed : c'.armed = c.armed.filter fun a => !(a.entry.drives p k))
    (hwaiting : c'.waiting = c.waiting.filter fun e => !(e.drives p k)) : entriesOnPin p j c' = entriesOnPin p j c := by
  have hone : ∀ e : Entry, (e.drives p j && !(e.drives p k)) = e.drives p j := by
    intro e
    rw [Bool.and_eq_left_iff_imp]
    simp only [Entry.drives, Bool.and_eq_true, decide_eq_true_eq, Bool.not_eq_true', Bool.and_eq_false_imp, decide_eq_false_iff_not]
    rintro ⟨-, hj⟩ - hk
    exact hjk (Option.some.inj (hj.symm.trans hk))
  have hqueues : c'.waitingOf p = (c.waitingOf p).filter fun e => !(e.drives p k) := by
    simp only [Schedule.waitingOf, Schedule.queue, hwaiting, List.filter_flatMap, List.filter_append, List.filter_filter,
      Bool.and_comm]
  unfold entriesOnPin
  rw [hqueues, harmed, List.filter_filter, List.filter_map, List.filter_map, List.filter_filter]
  simp only [hone, Function.comp_def]

/-! ## The loss of every claim (step 1 of R193) -/

theorem holdsPin_of_loss {p : Port} {j k : Pin} (hjk : j ≠ k) (s : State) :
    (expireClaim p k s).holdsPin p j = s.holdsPin p j := by
  unfold State.holdsPin
  rw [expireClaim_pins, Tab.get_upd_ne _ _ hjk.symm]

theorem expireClaims_pins (p : Port) {ks : List Pin} (hks : ks.Nodup) (s : State) (j : Pin) :
    (expireClaims p ks s).pins.get j =
      if j ∈ ks ∧ (s.pins.get j).holder = some p then lostCell s.time.rt (s.pins.get j) else s.pins.get j := by
  induction ks generalizing s with
  | nil => simp [expireClaims]
  | cons k ks ih =>
    obtain ⟨hk, hks⟩ := List.nodup_cons.1 hks
    unfold expireClaims
    split
    next hheld =>
      rw [ih hks, expireClaim_pins, (expireClaim_fireOnly p k s).time]
      by_cases hj : j = k
      · subst hj
        rw [if_neg fun h => hk h.1, if_pos ⟨List.mem_cons_self, holdsPin_iff.1 hheld⟩, Tab.get_upd_self]
      · rw [Tab.get_upd_ne _ _ (Ne.symm hj)]
        simp [hj]
    next hnot =>
      rw [ih hks]
      by_cases hj : j = k
      · subst hj
        rw [if_neg fun h => hk h.1, if_neg fun h => hnot (holdsPin_iff.2 h.2)]
      · simp [hj]

/-- The entry drives a pin of a list that its port holds. -/
def Entry.drivesHeld (p : Port) (ks : List Pin) (s : State) (e : Entry) : Bool := ks.any fun k => s.holdsPin p k && e.drives p k

theorem drivesHeld_of_loss {p : Port} {k : Pin} {ks : List Pin} (hk : k ∉ ks) (s : State) (e : Entry) :
    e.drivesHeld p ks (expireClaim p k s) = e.drivesHeld p ks s := by
  refine Bool.eq_iff_iff.2 ?_
  simp only [Entry.drivesHeld, List.any_eq_true]
  refine exists_congr fun j => and_congr_right fun hj => ?_
  rw [holdsPin_of_loss (ne_of_mem_of_not_mem hj hk)]

theorem expireClaims_entries (p : Port) {ks : List Pin} (hks : ks.Nodup) (s : State) :
    (expireClaims p ks s).sched.armed = s.sched.armed.filter (fun a => !(a.entry.drivesHeld p ks s)) ∧
      (expireClaims p ks s).sched.waiting = s.sched.waiting.filter fun e => !(e.drivesHeld p ks s) := by
  induction ks generalizing s with
  | nil => simp [expireClaims, Entry.drivesHeld]
  | cons k ks ih =>
    obtain ⟨hk, hks⟩ := List.nodup_cons.1 hks
    unfold expireClaims
    split
    next hheld =>
      obtain ⟨harmed, hwaiting⟩ := expireClaim_entries p k s
      obtain ⟨harmed', hwaiting'⟩ := ih hks (expireClaim p k s)
      have hcons : ∀ e : Entry, e.drivesHeld p (k :: ks) s = (e.drives p k || e.drivesHeld p ks s) := fun e => by
        simp [Entry.drivesHeld, hheld]
      simp only [harmed', hwaiting', harmed, hwaiting, List.filter_filter, drivesHeld_of_loss hk, hcons, Bool.not_or,
        Bool.and_comm, and_self]
    next hnot =>
      have hcons : ∀ e : Entry, e.drivesHeld p (k :: ks) s = e.drivesHeld p ks s := fun e => by
        simp [Entry.drivesHeld, hnot]
      simpa only [hcons] using ih hks s

/-- The bodies of the records of the claims lost on a list of pins (R67, R81). -/
def lostClaimRecords (p : Port) (ks : List Pin) (s : State) : List RecordBody :=
  (ks.filter fun k => s.holdsPin p k).flatMap fun k => lostPinRecords p k s.sched

theorem lostClaimRecords_of_loss {p : Port} {k : Pin} {ks : List Pin} (hk : k ∉ ks) (s : State) :
    lostClaimRecords p ks (expireClaim p k s) = lostClaimRecords p ks s := by
  obtain ⟨harmed, hwaiting⟩ := expireClaim_entries p k s
  have hheld : (ks.filter fun j => (expireClaim p k s).holdsPin p j) = ks.filter fun j => s.holdsPin p j :=
    List.filter_congr fun j hj => holdsPin_of_loss (ne_of_mem_of_not_mem hj hk) s
  unfold lostClaimRecords
  rw [hheld]
  refine List.flatMap_congr fun j hj => ?_
  rw [lostPinRecords, lostPinRecords,
    entriesOnPin_of_loss (ne_of_mem_of_not_mem (List.mem_of_mem_filter hj) hk) harmed hwaiting]

theorem expireClaims_inRoom {p : Port} {ks : List Pin} (hks : ks.Nodup) {s : State}
    (hroom : (s.rings.get p).records.length + (lostClaimRecords p ks s).length ≤ 32) :
    PostedInRoom p (lostClaimRecords p ks s) s (expireClaims p ks s) := by
  induction ks generalizing s with
  | nil => exact .of_sameLog ⟨rfl, rfl, rfl⟩ rfl rfl p
  | cons k ks ih =>
    obtain ⟨hk, hks⟩ := List.nodup_cons.1 hks
    unfold expireClaims
    split
    next hheld =>
      have hcons : lostClaimRecords p (k :: ks) s = lostPinRecords p k s.sched ++ lostClaimRecords p ks s := by
        simp [lostClaimRecords, hheld]
      rw [hcons, List.length_append] at hroom
      have hfirst := expireClaim_inRoom (p := p) (k := k) (s := s) (by omega)
      have hlength := hfirst.length
      have hrest := ih hks (s := expireClaim p k s) (by rw [lostClaimRecords_of_loss hk]; omega)
      rw [lostClaimRecords_of_loss hk] at hrest
      rw [hcons]
      exact hfirst.trans hrest
    next hnot =>
      have hcons : lostClaimRecords p (k :: ks) s = lostClaimRecords p ks s := by
        simp [lostClaimRecords, hnot]
      rw [hcons] at hroom ⊢
      exact ih hks hroom

/-! ## What postings keep -/

/-- From `s` to `t` records may be posted: raises stay, and no count rises but that of RING_OVERFLOW (R126 to R128). -/
structure PostsKept (s t : State) : Prop where
  raises : RaisesKept s t
  counts : ∀ j, j ≠ .ringOverflow → countOf t j = countOf s j

theorem PostsKept.of_sameLog {s t : State} (h : SameLog s t) : PostsKept s t :=
  ⟨.of_vectors h.vectors, fun j _ => countOf_of_faults h.faults j⟩

theorem PostsKept.trans {s t u : State} (h : PostsKept s t) (k : PostsKept t u) : PostsKept s u :=
  ⟨h.raises.trans k.raises, fun j hj => (k.counts j hj).trans (h.counts j hj)⟩

theorem post_postsKept (p : Port) (r : Record) (s : State) : PostsKept s (post p r s) :=
  ⟨post_raisesKept p r s, fun _ hj => post_count hj p r s⟩

theorem postCancelled_postsKept (why : Reason) (es : List Entry) (s : State) : PostsKept s (postCancelled why es s) := by
  induction es generalizing s with
  | nil => exact .of_sameLog ⟨rfl, rfl, rfl⟩
  | cons e es ih => exact (post_postsKept _ _ s).trans (ih _)

theorem loseClaim_postsKept (p : Port) (k : Pin) (why : Reason) (s : State) : PostsKept s (loseClaim p k why s) := by
  have hbefore := PostsKept.of_sameLog (s := s) (t := withoutEntries p k s) ⟨rfl, rfl, rfl⟩
  have hafter := PostsKept.of_sameLog (s := purgePin p k why s) (t := loseClaim p k why s) ⟨rfl, rfl, rfl⟩
  exact (hbefore.trans (postCancelled_postsKept why _ _)).trans hafter

theorem expireClaims_postsKept (p : Port) (ks : List Pin) (s : State) : PostsKept s (expireClaims p ks s) := by
  induction ks generalizing s with
  | nil => exact .of_sameLog ⟨rfl, rfl, rfl⟩
  | cons k ks ih =>
    unfold expireClaims
    split
    · exact ((loseClaim_postsKept p k .lease s).trans (post_postsKept _ _ _)).trans (ih _)
    · exact ih s

/-! ## The settings claim (step 2 of R193) -/

/-- The settings claim of `p` is cleared (R168, R193). -/
def clearSettings (p : Port) (s : State) : State :=
  { s with settings := { s.settings with holder := if s.settings.holder = some p then none else s.settings.holder } }

theorem expireSettings_eq (p : Port) (s : State) : expireSettings p s =
    if s.settings.holder = some p then post p (plainRecord (clearSettings p s) (.claimLost none)) (clearSettings p s) else s := by
  unfold expireSettings clearSettings State.holdsSettings
  by_cases hholder : s.settings.holder = some p <;> simp [hholder]

theorem clearSettings_of_not_holder {p : Port} {s : State} (h : s.settings.holder ≠ some p) : clearSettings p s = s := by
  rw [clearSettings, if_neg h]

theorem expireSettings_logOnly (p : Port) (s : State) : LogOnly (clearSettings p s) (expireSettings p s) := by
  rw [expireSettings_eq]
  split
  next => exact post_logOnly _ _ _
  next hnot =>
    rw [clearSettings_of_not_holder hnot]
    exact .refl s

theorem expireSettings_claims (p : Port) (s : State) : (expireSettings p s).pins = s.pins ∧
    (expireSettings p s).sched.armed = s.sched.armed ∧ (expireSettings p s).sched.waiting = s.sched.waiting := by
  have hlog := expireSettings_logOnly p s
  exact ⟨hlog.pins, hlog.armed, hlog.waiting⟩

theorem clearSettings_fireOnly (p : Port) {s t : State} (h : FireOnly s t) : FireOnly (clearSettings p s) (clearSettings p t) := by
  constructor
  have heq := h.eq
  unfold clearSettings
  rw [h.settings]
  exact congrArg (fun u : State => { u with settings := { s.settings with
    holder := if s.settings.holder = some p then none else s.settings.holder } }) heq

theorem expireSettings_postsKept (p : Port) (s : State) : PostsKept s (expireSettings p s) := by
  rw [expireSettings_eq]
  split
  · exact (PostsKept.of_sameLog (s := s) (t := clearSettings p s) ⟨rfl, rfl, rfl⟩).trans (post_postsKept _ _ _)
  · exact .of_sameLog ⟨rfl, rfl, rfl⟩

/-- The body of the record of a lost settings claim (R193). -/
def lostSettingsRecords (p : Port) (s : State) : List RecordBody := if s.settings.holder = some p then [.claimLost none] else []

theorem expireSettings_inRoom {p : Port} {s : State}
    (hroom : (s.rings.get p).records.length + (lostSettingsRecords p s).length ≤ 32) :
    PostedInRoom p (lostSettingsRecords p s) s (expireSettings p s) := by
  unfold lostSettingsRecords at hroom ⊢
  rw [expireSettings_eq]
  split
  next hholder =>
    rw [if_pos hholder, List.length_singleton] at hroom
    exact (PostedInRoom.of_sameLog (s := s) (t := clearSettings p s) ⟨rfl, rfl, rfl⟩ rfl rfl p).trans (post_inRoom (by exact hroom) _)
  next => exact .of_sameLog ⟨rfl, rfl, rfl⟩ rfl rfl p

/-! ## The five steps -/

theorem nodup_allPins : allPins.Nodup := by decide

theorem mem_allPins (k : Pin) : k ∈ allPins := by
  revert k
  decide

/-- Steps 1 and 2 of R193. -/
def claimsLost (p : Port) (s : State) : State := expireSettings p (expireClaims p allPins s)

/-- Steps 1 to 4 of R193. -/
def leaseReported (p : Port) (s : State) : State := raiseClass p .claim (occur .leaseExpired (some p) .none (claimsLost p s))

theorem leaseReported_logOnly (p : Port) (s : State) : LogOnly (claimsLost p s) (leaseReported p s) :=
  (occur_logOnly _ _ _ _).trans (raiseClass_logOnly _ _ _)

theorem claimsLost_fireOnly (p : Port) (s : State) : FireOnly (clearSettings p s) (claimsLost p s) :=
  (clearSettings_fireOnly p (expireClaims_fireOnly p allPins s)).trans (expireSettings_logOnly p _).fire

theorem leaseReported_fireOnly (p : Port) (s : State) : FireOnly (clearSettings p s) (leaseReported p s) :=
  (claimsLost_fireOnly p s).trans (leaseReported_logOnly p s).fire

theorem claimsLost_claims (p : Port) (s : State) : (claimsLost p s).pins = (expireClaims p allPins s).pins ∧
    (claimsLost p s).sched.armed = (expireClaims p allPins s).sched.armed ∧
      (claimsLost p s).sched.waiting = (expireClaims p allPins s).sched.waiting := by
  unfold claimsLost
  exact expireSettings_claims p _

/-- Nothing behind step 1 changes the pins or the entries. -/
theorem leaseReported_claims (p : Port) (s : State) : (leaseReported p s).pins = (expireClaims p allPins s).pins ∧
    (leaseReported p s).sched.armed = (expireClaims p allPins s).sched.armed ∧
      (leaseReported p s).sched.waiting = (expireClaims p allPins s).sched.waiting := by
  obtain ⟨hpins, harmed, hwaiting⟩ := claimsLost_claims p s
  have hreport := leaseReported_logOnly p s
  exact ⟨hreport.pins.trans hpins, hreport.armed.trans harmed, hreport.waiting.trans hwaiting⟩

theorem claimsLost_postsKept (p : Port) (s : State) : PostsKept s (claimsLost p s) :=
  (expireClaims_postsKept p allPins s).trans (expireSettings_postsKept p _)

theorem leaseReported_count (p : Port) (s : State) : countOf (leaseReported p s) .leaseExpired = bumped (countOf s .leaseExpired) := by
  rw [leaseReported, countOf_of_faults (raiseClass_faults _ _ _), occur_count (by decide), if_pos rfl,
    (claimsLost_postsKept p s).counts _ (by decide)]

theorem leaseReported_raised (p : Port) (s : State) : ClassRaised s (leaseReported p s) p .claim :=
  ClassRaised_before (raiseClass_classRaised p .claim _) ((claimsLost_postsKept p s).raises.trans (occur_raisesKept _ _ _ _))

theorem claimsLost_inRoom {p : Port} {s : State} (hroom : (s.rings.get p).records.length + (leaseRecords p s).length ≤ 32) :
    PostedInRoom p (leaseRecords p s) s (claimsLost p s) := by
  have hsplit : leaseRecords p s = lostClaimRecords p allPins s ++ lostSettingsRecords p s := rfl
  rw [hsplit, List.length_append] at hroom
  have hclaims := expireClaims_inRoom nodup_allPins (p := p) (s := s) (by omega)
  have hlength := hclaims.length
  have hsame : lostSettingsRecords p (expireClaims p allPins s) = lostSettingsRecords p s := by
    rw [lostSettingsRecords, (expireClaims_fireOnly p allPins s).settings, lostSettingsRecords]
  have hsettings := expireSettings_inRoom (p := p) (s := expireClaims p allPins s) (by rw [hsame]; omega)
  rw [hsame] at hsettings
  exact hclaims.trans hsettings

theorem leaseReported_postedAll {p : Port} {s : State} (hroom : (s.rings.get p).records.length + (leaseRecords p s).length ≤ 32) :
    PostedAll s (leaseReported p s) p (leaseRecords p s) :=
  (claimsLost_inRoom hroom).postedAll ((occur_grow _ _ _ _).trans (.of_eq (raiseClass_rings _ _ _)))

theorem leaseExpiry_before {p : Port} {point : Nat} {s : State} (hlease : (s.ports.get p).lease = .running point)
    (h : s.time.rt < point) : leaseExpiry p s = s := by
  have hnot : s.leaseDue p = false := by simp [State.leaseDue, hlease, h]
  rw [leaseExpiry, hnot]
  rfl

theorem leaseExpiry_reached {p : Port} {point : Nat} {s : State} (hpowered : s.powered = true)
    (hlease : (s.ports.get p).lease = .running point) (h : point ≤ s.time.rt) : leaseExpiry p s =
      { leaseReported p s with ports := s.ports.set p { s.ports.get p with lease := .expired } } := by
  have hdue : s.leaseDue p = true := by simp [State.leaseDue, hpowered, hlease, h]
  have hports : (leaseReported p s).ports = s.ports := (leaseReported_fireOnly p s).ports
  have hsteps : leaseExpiry p s =
      { leaseReported p s with ports := (leaseReported p s).ports.upd p fun q => { q with lease := .expired } } := by
    unfold leaseExpiry leaseReported claimsLost
    rw [if_pos hdue]
  rw [hsteps, hports, Tab.upd]

theorem exec_leaseExpiry (p : Port) (s : State) : exec (.leaseExpiry p) s = .next (leaseExpiry p s) := rfl

/-- Settles O57: the claims of all pins by induction over them, and then the later steps of R193 in turn. -/
theorem leaseExpiryTearsDownTheClaims : Obligations.LeaseExpiryTearsDownTheClaims := by
  intro p point s hpowered hlease
  rw [exec_leaseExpiry]
  refine ⟨fun hbefore => by rw [leaseExpiry_before hlease hbefore], fun hreached => ?_⟩
  rw [leaseExpiry_reached hpowered hlease hreached]
  obtain ⟨hpins, harmed, hwaiting⟩ := leaseReported_claims p s
  obtain ⟨harmed', hwaiting'⟩ := expireClaims_entries p nodup_allPins s
  unfold Entry.drivesHeld at harmed' hwaiting'
  have hfire := leaseReported_fireOnly p s
  have hcount := leaseReported_count p s
  have hraised := leaseReported_raised p s
  have hposted := leaseReported_postedAll (p := p) (s := s)
  rw [harmed'] at harmed
  rw [hwaiting'] at hwaiting
  generalize leaseReported p s = u at hpins harmed hwaiting hfire hcount hraised hposted ⊢
  refine ⟨_, u, rfl, rfl, hfire, fun k hholder => ?held, fun k hnot => ?others, harmed, hwaiting, hcount, hraised, hposted⟩
  case held =>
    rw [hpins, expireClaims_pins p nodup_allPins, if_pos ⟨mem_allPins k, hholder⟩]
    rfl
  case others => rw [hpins, expireClaims_pins p nodup_allPins, if_neg fun h => hnot h.2]

end Sys2Proof.Machine
end

section
/-! SUPPORT. What every step keeps of the pins and their claims: an OUT pin driven, at its safe level where it has no holder or the
schedule is HELD, and each driving entry's owner the holder of its pin (R72, R74, R82, R90). -/

namespace Sys2Proof.Machine

open Sys2Proof.Safety

/-! ## One pin -/

/-- Only an OUT pin has a driven level, a claim holder or a contention check (R72, R74, R87). -/
structure PinCell.OnlyOut (c : PinCell) : Prop where
  driven : c.driven ≠ none → c.map.dir = .output
  holder : c.holder ≠ none → c.map.dir = .output
  check : c.check ≠ none → c.map.dir = .output

theorem PinCell.OnlyOut.of_out {c : PinCell} (h : c.map.dir = .output) : c.OnlyOut := ⟨fun _ => h, fun _ => h, fun _ => h⟩

theorem PinCell.OnlyOut.of_tied {held : Bool} {c : PinCell} (h : PinTied held c) : c.OnlyOut := by
  obtain ⟨hdriven, hholder, hcheck, -⟩ := h
  exact ⟨hdriven.1, hholder, hcheck⟩

/-- A safe drive ties a pin, whether or not the schedule is HELD (R72). -/
theorem PinCell.OnlyOut.tied_driveSafe {c : PinCell} (h : c.OnlyOut) (held : Bool) (rt : Nat) : PinTied held (c.driveSafe rt) := by
  by_cases hout : c.map.dir = .output
  · have hlevel : (c.driveSafe rt).driven = some c.map.safe := by
      rw [driveSafe, drive_eq]
      exact drivenCell_driven hout rt _
    simp [PinTied, hlevel, hout]
  · have hsame : c.driveSafe rt = c := by simp [driveSafe, drive, hout]
    rw [hsame]
    exact ⟨⟨h.driven, fun hdir => absurd hdir hout⟩, h.holder, h.check, fun hdir => absurd hdir hout⟩

/-- In RUN a claimed pin stays tied under any drive (R72, R73). -/
theorem PinTied_drive {c : PinCell} (h : PinTied false c) (hclaimed : c.holder ≠ none) (rt : Nat) (level : Level) :
    PinTied false (c.drive rt level) := by
  obtain ⟨-, hholder, -, -⟩ := h
  have hout := hholder hclaimed
  have hlevel : (c.drive rt level).driven = some level := by
    rw [PinCell.drive_eq]
    exact drivenCell_driven hout rt level
  simp [PinTied, hlevel, hout, hclaimed]

theorem PinTied_run {held : Bool} {c : PinCell} (h : PinTied held c) : PinTied false c := by
  obtain ⟨hdriven, hholder, hcheck, hsafe⟩ := h
  exact ⟨hdriven, hholder, hcheck, fun hout hfree => hsafe hout (.inl (hfree.resolve_right Bool.false_ne_true))⟩

theorem PinTied_checkIdle {held : Bool} {c : PinCell} (h : PinTied held c) : PinTied held { c with check := none } := by
  obtain ⟨hdriven, hholder, -, hsafe⟩ := h
  exact ⟨hdriven, hholder, fun hcheck => absurd rfl hcheck, hsafe⟩

theorem PinTied_claim {held : Bool} {c : PinCell} (h : PinTied held c) (hfree : c.holder = none) (hout : c.map.dir = .output)
    (p : Port) : PinTied held { c with holder := some p } := by
  obtain ⟨hdriven, -, hcheck, hsafe⟩ := h
  exact ⟨hdriven, fun _ => hout, hcheck, fun _ _ => hsafe hout (.inl hfree)⟩

/-- A pin with no driven level and no check, where no port can hold it. -/
theorem PinTied_undriven {held : Bool} {c : PinCell} (hout : c.map.dir ≠ .output) (hdriven : c.driven = none)
    (hholder : c.holder = none) (hcheck : c.check = none) : PinTied held c := by
  simp [PinTied, hout, hdriven, hholder, hcheck]

/-- PIN CONFIGURE keeps a claimed pin's direction (R75 to R77). -/
theorem PinTied_configure {held : Bool} {c : PinCell} {m : PinMap} (h : PinTied held c)
    (hdir : c.map.dir ≠ m.dir → c.holder = none) (rt : Nat) : PinTied held (c.configure m rt held) := by
  obtain ⟨hdriven, hholder, -, -⟩ := h
  unfold PinCell.configure
  dsimp only
  split
  next hout =>
    split
    next hbefore =>
      split
      next => exact (PinCell.OnlyOut.of_out hout).tied_driveSafe held rt
      next hclaimed =>
        refine ⟨⟨fun _ => hout, fun _ => hdriven.2 hbefore⟩, fun _ => hout, fun _ => hout, fun _ hfree => absurd hfree hclaimed⟩
    next => exact (PinCell.OnlyOut.of_out hout).tied_driveSafe held rt
  next hnot =>
    refine PinTied_undriven hnot rfl ?_ rfl
    by_cases hsame : c.map.dir = m.dir
    · exact of_not_not fun hheld => hnot (hsame ▸ hholder hheld)
    · exact hdir hsame

/-- A pin that loses its claim goes to its safe level (R80, R89). -/
theorem PinTied_lostCell {held : Bool} {c : PinCell} (h : PinTied held c) (rt : Nat) : PinTied held (lostCell rt c) := by
  have hout : PinCell.OnlyOut { c with holder := none } :=
    ⟨(PinCell.OnlyOut.of_tied h).driven, fun hne => absurd rfl hne, (PinCell.OnlyOut.of_tied h).check⟩
  have htied := hout.tied_driveSafe held rt
  rwa [PinCell.driveSafe, PinCell.drive_eq] at htied

theorem PinTied_hubReset (held : Bool) (c : PinCell) : PinTied held c.hubReset := by
  by_cases hout : c.map.dir = .output <;> simp [PinTied, PinCell.hubReset, hout]

theorem PinTied_load {c : PinCell} (hfree : c.holder = none) (held : Bool) (rt : Nat) (m : PinMap) :
    PinTied held (c.load rt m) := by
  unfold PinCell.load
  split
  next hout => exact (PinCell.OnlyOut.of_out hout).tied_driveSafe held rt
  next hnot => exact PinTied_undriven hnot rfl hfree rfl

/-! ## Pins and entries -/

/-- R72, R74: the part of `Safety.PinsTied` that speaks of the pins and of the entries that drive them. -/
structure ClaimsTied (s : State) : Prop where
  cells : ∀ k, PinTied s.sched.held (s.pins.get k)
  owners : ∀ e ∈ s.sched.live, ∀ k, e.action.outPin = some k → (s.pins.get k).holder = some e.owner

theorem pinsTied_iff {s : State} : PinsTied s ↔ ClaimsTied s ∧ EmptyBeforeLoad s :=
  ⟨fun ⟨hcells, howners, hempty⟩ => ⟨⟨hcells, howners⟩, hempty⟩, fun ⟨⟨hcells, howners⟩, hempty⟩ => ⟨hcells, howners, hempty⟩⟩

/-- The pins and the schedule state are the same. -/
structure SamePins (s t : State) : Prop where
  pins : t.pins = s.pins
  held : t.sched.held = s.sched.held

theorem SamePins.refl (s : State) : SamePins s s := ⟨rfl, rfl⟩

theorem SamePins.of_eq {s t : State} (h : t = s) : SamePins s t := h ▸ .refl s

theorem SamePins.of_logOnly {s t : State} (h : LogOnly s t) : SamePins s t := ⟨h.pins, h.held⟩

theorem SamePins.trans {s t u : State} (h : SamePins s t) (k : SamePins t u) : SamePins s u :=
  ⟨k.pins.trans h.pins, k.held.trans h.held⟩

theorem SamePins.after {s t u : State} (k : SamePins t u) (h : SamePins s t) : SamePins s u := h.trans k

section
variable {s t : State} (hs : ClaimsTied s)
include hs

/-- No entry joins the schedule, and each entry that stays has the holder of its pin. -/
theorem ClaimsTied.of_entriesLast (h : EntriesLast s t) (hcells : ∀ k, PinTied t.sched.held (t.pins.get k))
    (hholders : ∀ k, (t.pins.get k).holder = (s.pins.get k).holder) : ClaimsTied t := by
  refine ⟨hcells, fun e he k hout => ?_⟩
  obtain ⟨e', he', hlasting⟩ := h.exists_live he
  have haction : e'.action = e.action := by rw [← e'.lasting_action, hlasting, e.lasting_action]
  have howner : e'.owner = e.owner := by rw [← e'.lasting_owner, hlasting, e.lasting_owner]
  rw [hholders, ← howner]
  exact hs.owners e' he' k (haction ▸ hout)

theorem ClaimsTied.of_samePins (h : SamePins s t) (hlast : EntriesLast s t) : ClaimsTied t :=
  hs.of_entriesLast hlast (by rw [h.pins, h.held]; exact hs.cells) fun k => by rw [h.pins]

theorem ClaimsTied.of_logOnly (h : LogOnly s t) : ClaimsTied t := hs.of_samePins (.of_logOnly h) (.of_logOnly h)

theorem ClaimsTied.of_same (hpins : t.pins = s.pins) (hsched : t.sched = s.sched) : ClaimsTied t :=
  hs.of_samePins ⟨hpins, by rw [hsched]⟩ (.of_eq (by rw [hsched]) (by rw [hsched]))

end

theorem ClaimsTied.of_empty {t : State} (hcells : ∀ k, PinTied t.sched.held (t.pins.get k)) (h : t.sched.live = []) :
    ClaimsTied t := ⟨hcells, fun e he => by rw [h] at he; cases he⟩

/-! ## Expiries -/

section
variable {s : State} (hs : ClaimsTied s)
include hs

/-- The drive of an entry in RUN: its pin is claimed, so any level is allowed there (R72, R82). -/
theorem ClaimsTied.levelDrive_cells (hrun : s.sched.held = false) {k : Pin} (hclaimed : (s.pins.get k).holder ≠ none)
    (level : Level) (j : Pin) : PinTied false ((levelDrive k level s).pins.get j) ∧
      ((levelDrive k level s).pins.get j).holder = (s.pins.get j).holder := by
  have hcell := hs.cells j
  rw [hrun] at hcell
  rw [levelDrive_pins, Tab.get_upd]
  split
  next hkj =>
    subst hkj
    exact ⟨PinTied_drive hcell hclaimed _ level, PinCell.drive_holder _ _ _⟩
  next => exact ⟨hcell, rfl⟩

theorem ClaimsTied.expiryDrive_cells (hrun : s.sched.held = false) {a : Armed} (ha : a.entry ∈ s.sched.live) (j : Pin) :
    PinTied false ((expiryDrive a s).pins.get j) ∧ ((expiryDrive a s).pins.get j).holder = (s.pins.get j).holder := by
  have hclaimed : ∀ k, a.entry.action.outPin = some k → (s.pins.get k).holder ≠ none := fun k hout => by
    rw [hs.owners _ ha k hout]
    exact Option.some_ne_none _
  have hcell := hs.cells j
  rw [hrun] at hcell
  unfold expiryDrive
  split
  next haction => exact hs.levelDrive_cells hrun (hclaimed _ (by rw [haction]; rfl)) _ j
  next haction _ => exact hs.levelDrive_cells hrun (hclaimed _ (by rw [haction]; rfl)) _ j
  next haction _ => exact hs.levelDrive_cells hrun (hclaimed _ (by rw [haction]; rfl)) _ j
  next => exact ⟨hcell, rfl⟩

theorem ClaimsTied.expireOne (hrun : s.sched.held = false) {a : Armed} {rest : List Armed} (harmed : s.sched.armed = a :: rest)
    (n : Nat) : ClaimsTied (expireOne a n { s with sched := { s.sched with armed := rest } }) := by
  have hlive : a.entry ∈ s.sched.live := by simp [Schedule.live, harmed]
  have hpins : (Machine.expireOne a n { s with sched := { s.sched with armed := rest } }).pins = (expiryDrive a s).pins := by
    rw [expireOne_pins]
    unfold expiryDrive
    split <;> rfl
  refine hs.of_entriesLast (expireOne_entriesLast harmed n) (fun k => ?_) fun k => ?_
  · rw [(expireOne_fireOnly a n _).held, hpins, hrun]
    exact (hs.expiryDrive_cells hrun hlive k).1
  · rw [hpins]
    exact (hs.expiryDrive_cells hrun hlive k).2

end

theorem takeDue_claimsTied (late : Bool) {s : State} (hs : ClaimsTied s) : ClaimsTied (takeDue late s).1 := by
  unfold takeDue
  generalize 2 * s.sched.armed.length = n
  induction n generalizing s with
  | zero => exact hs
  | succ n ih =>
    unfold expireDue
    split
    · exact hs
    · next a rest harmed =>
      split
      · next hdue => exact ih (hs.expireOne hdue.1 harmed _)
      · exact hs

/-! ## Edges of pins, and forward steps -/

theorem armQueues_samePins (pin : Pin) (ed : Edge) (stamp : Nat) (os : List Port) (s : State) :
    SamePins s (armQueues pin ed stamp os s) := by
  have hone : ∀ (o : Port) (s : State), SamePins s (armOldest pin ed stamp o s) := fun o s => by
    unfold armOldest
    split
    · exact .refl s
    · exact ⟨rfl, rfl⟩
  induction os generalizing s with
  | nil => exact .refl s
  | cons o os ih => exact (hone o s).trans (ih _)

theorem handOn_claimsTied (pin : Pin) (ed : Edge) (ht : Nat) (epoch : BitVec 16) (locked late : Bool) {s : State}
    (hs : ClaimsTied s) : ClaimsTied (handOn pin ed ht epoch locked late s) := by
  have hposted := hs.of_logOnly (postAll_logOnly ⟨.capture pin ed, 0, late, locked, ht, epoch⟩ (subscribers pin ed s) s)
  exact takeDue_claimsTied true
    (hposted.of_samePins (armQueues_samePins pin ed ht allPorts _) (armQueues_entriesLast pin ed ht allPorts _))

theorem transition_claimsTied (pin : Pin) (level : Level) {s : State} (hs : ClaimsTied s) :
    ClaimsTied (transition pin level s) := by
  have hwatch : ∀ w, ClaimsTied (setWatch pin w s) := fun w => hs.of_same rfl rfl
  unfold transition
  repeat' split
  · exact hs
  · exact hwatch _
  · exact handOn_claimsTied _ _ _ _ _ _ (hwatch _)
  · exact hwatch _
  · exact hs

theorem debounceWindowEnd_claimsTied (pin : Pin) (level : Level) {s : State} (hs : ClaimsTied s) :
    ClaimsTied (debounceWindowEnd pin level s) := by
  have hwatch : ∀ w, ClaimsTied (setWatch pin w s) := fun w => hs.of_same rfl rfl
  unfold debounceWindowEnd
  dsimp only
  repeat' split
  · exact hs
  · exact hwatch _
  · exact handOn_claimsTied _ _ _ _ _ _ (hwatch _)

theorem StepOrders.claimsTied {amount : Nat} {m u : State} (h : StepOrders amount m u) (hm : ClaimsTied m) : ClaimsTied u := by
  rcases h with rfl | rfl
  · exact (takeDue_claimsTied true hm).of_logOnly (occur_logOnly _ _ _ _)
  · exact takeDue_claimsTied true (hm.of_logOnly (occur_logOnly _ _ _ _))

theorem forwardStep_claimsTied (d : Nat) {s : State} (hs : ClaimsTied s) : ClaimsTied (forwardStep d s) := by
  obtain ⟨draws, horders⟩ := stepNotices_orders ((s.time.step d).ht - s.time.ht) { s with time := s.time.step d }
  exact horders.claimsTied (hs.of_same rfl rfl)

theorem timeSet_claimsTied (p : Port) (args : List Byte) {s : State} (hs : ClaimsTied s) :
    ClaimsTied (timeSet p args s).state := by
  unfold timeSet
  dsimp only
  repeat' split
  · exact hs
  · exact hs
  · exact hs
  · exact hs
  · exact hs
  · exact hs
  · exact forwardStep_claimsTied _ hs

/-! ## Edges of the reference -/

theorem enterState_samePins (new : DiscState) (s : State) : SamePins s (enterState new s) := by
  unfold enterState
  dsimp only
  split
  · exact ⟨rfl, rfl⟩
  · exact (SamePins.of_logOnly (reportChange_logOnly _ _ _)).after ⟨rfl, rfl⟩

/-- A move to a state after a change of the discipline unit alone. -/
theorem enterState_samePins_after (new : DiscState) (d : Discipline) (s : State) :
    SamePins s (enterState new { s with disc := d }) := (enterState_samePins new _).after ⟨rfl, rfl⟩

theorem intoLongWindow_samePins (e : Int) (s : State) : SamePins s (intoLongWindow e s) := by
  unfold intoLongWindow
  dsimp only
  repeat' split
  · exact ⟨rfl, rfl⟩
  · exact enterState_samePins_after _ _ s
  · exact ⟨rfl, rfl⟩

theorem unlock_samePins (e : Int) (s : State) : SamePins s (unlock e s) := by
  unfold unlock
  dsimp only
  repeat' split
  · exact (SamePins.of_logOnly (occur_logOnly _ _ _ _)).after ⟨rfl, rfl⟩
  · exact (SamePins.of_logOnly ((occur_logOnly _ _ _ _).trans (reportChange_logOnly _ _ _))).after ⟨rfl, rfl⟩
  · exact (SamePins.of_logOnly ((reportChange_logOnly _ _ _).trans (occur_logOnly _ _ _ _))).after ⟨rfl, rfl⟩

/-- The handling of an edge outside ACQUIRE steps no time, so nothing expires (R22, R23, R26, R27). -/
theorem handleEdge_samePins {s : State} (h : s.disc.state ≠ .acquire) : SamePins s (handleEdge s) := by
  unfold handleEdge
  split
  · exact .refl s
  · unfold edgeInSearch
    split
    · exact ⟨rfl, rfl⟩
    · exact enterState_samePins_after _ _ s
  · next hstate => exact absurd hstate h
  · unfold edgeInTrack
    split
    · exact enterState_samePins_after _ _ s
    · exact intoLongWindow_samePins _ s
  · unfold edgeInLocked
    split
    · exact unlock_samePins _ s
    · exact intoLongWindow_samePins _ s
  · unfold edgeInHoldover
    split
    · exact ⟨rfl, rfl⟩
    · exact enterState_samePins_after _ _ s

theorem edgeInAcquire_claimsTied (e : Int) {s : State} (hs : ClaimsTied s) : ClaimsTied (edgeInAcquire e s) := by
  unfold edgeInAcquire
  dsimp only
  repeat' split
  · exact hs.of_same rfl rfl
  · exact forwardStep_claimsTied _ (hs.of_same rfl rfl)
  · exact hs.of_samePins (enterState_samePins_after _ _ s) (enterState_shrinks_after _ _ s).entriesLast
  · exact hs.of_same rfl rfl

theorem handleEdge_claimsTied {s : State} (hs : ClaimsTied s) : ClaimsTied (handleEdge s) := by
  by_cases h : s.disc.state = .acquire
  · rw [handleEdge_of_acquire h]
    exact edgeInAcquire_claimsTied _ hs
  · exact hs.of_samePins (handleEdge_samePins h) (handleEdge_shrinks h).entriesLast

theorem activeEdge_claimsTied (change : Edge) {s : State} (hs : ClaimsTied s) : ClaimsTied (activeEdge change s) := by
  unfold activeEdge
  repeat' split
  · exact handleEdge_claimsTied (hs.of_same rfl rfl)
  · exact hs.of_logOnly (occur_logOnly _ _ _ s)
  · exact hs

/-! ## Admissions -/

/-- Checks 4 and 5 of R42 and R109. -/
theorem admissionChecks_holder {p : Port} {a : Admission} {s : State} {slot : Slot} (h : admissionChecks p a s = .ok slot)
    {k : Pin} (hout : a.action.outPin = some k) : (s.pins.get k).holder = some p := by
  simp only [admissionChecks, hout] at h
  split at h
  · cases h
  · split at h
    · cases h
    · next hholds => exact holdsPin_iff.1 (by simpa using hholds)

/-- An entry that joins the schedule with the claim of its pin. -/
theorem ClaimsTied.join {s t : State} (hs : ClaimsTied s) {e : Entry} (hsame : SamePins s t)
    (hlive : ∀ x ∈ t.sched.live, x = e ∨ x ∈ s.sched.live)
    (he : ∀ k, e.action.outPin = some k → (s.pins.get k).holder = some e.owner) : ClaimsTied t := by
  refine ⟨by rw [hsame.pins, hsame.held]; exact hs.cells, fun x hx k hout => ?_⟩
  rw [hsame.pins]
  rcases hlive x hx with rfl | hmem
  · exact he k hout
  · exact hs.owners x hmem k hout

theorem armEntry_live {a : Armed} {s : State} {x : Entry} (hx : x ∈ (armEntry a s).sched.live) :
    x = a.entry ∨ x ∈ s.sched.live := by
  have hperm := ((insertArmed_perm a s.sched.armed).map (·.entry)).append_right s.sched.waiting
  exact List.mem_cons.1 (hperm.subset hx)

theorem waitEntry_live {e : Entry} {s : State} {x : Entry} (hx : x ∈ (waitEntry e s).sched.live) :
    x = e ∨ x ∈ s.sched.live := by
  simp only [Schedule.live, waitEntry, ← List.append_assoc] at hx
  exact List.mem_cons.1 ((List.perm_append_singleton _ _).subset hx)

theorem scheduleAt_claimsTied (p : Port) (args : List Byte) {s : State} (hs : ClaimsTied s) :
    ClaimsTied (scheduleAt p args s).state := by
  unfold scheduleAt
  dsimp only
  repeat' split
  · exact hs
  · exact hs
  · exact hs
  · exact hs
  · next a _ _ slot hchecks =>
    have harmed : ClaimsTied (armEntry ⟨a.entry p slot, fld args 3 8, .lead⟩ s) :=
      hs.join ⟨rfl, rfl⟩ (fun _ => armEntry_live) fun k hout => admissionChecks_holder hchecks hout
    simp only [ok, placeTimed]
    split
    · exact takeDue_claimsTied true harmed
    · exact harmed

theorem scheduleOnEdge_claimsTied (p : Port) (args : List Byte) {s : State} (hs : ClaimsTied s) :
    ClaimsTied (scheduleOnEdge p args s).state := by
  unfold scheduleOnEdge
  dsimp only
  repeat' split
  · exact hs
  · exact hs
  · exact hs
  · exact hs
  · next hchecks =>
    exact hs.join ⟨rfl, rfl⟩ (fun _ => waitEntry_live) fun k hout => admissionChecks_holder hchecks hout

/-! ## Holds -/

theorem enterHeld_claimsTied {s : State} (hs : ClaimsTied s) : ClaimsTied (enterHeld s) := by
  unfold enterHeld
  split
  · exact hs
  · refine hs.of_entriesLast (.of_eq rfl rfl) (fun k => ?_) fun k => ?_
    · change PinTied true ((s.pins.map (PinCell.driveSafe s.time.rt)).get k)
      rw [Tab.get_map]
      exact (PinCell.OnlyOut.of_tied (hs.cells k)).tied_driveSafe true _
    · change ((s.pins.map (PinCell.driveSafe s.time.rt)).get k).holder = _
      rw [Tab.get_map, PinCell.driveSafe_holder]

theorem takeHoldNotice_claimsTied {s : State} (hs : ClaimsTied s) : ClaimsTied (takeHoldNotice s) := by
  unfold takeHoldNotice
  split
  · exact enterHeld_claimsTied (hs.of_samePins ⟨rfl, rfl⟩ (.of_eq rfl rfl))
  · exact hs

theorem hold_claimsTied (p : Port) (args : List Byte) {s : State} (hs : ClaimsTied s) : ClaimsTied (hold p args s).state := by
  unfold hold
  repeat' split
  · exact hs
  · exact hs
  · exact enterHeld_claimsTied hs

theorem resume_claimsTied (p : Port) (args : List Byte) {s : State} (hs : ClaimsTied s) :
    ClaimsTied (resume p args s).state := by
  have hrun : ClaimsTied { s with sched := { s.sched with held := false } } :=
    hs.of_entriesLast (.of_eq rfl rfl) (fun k => PinTied_run (hs.cells k)) fun _ => rfl
  unfold resume
  repeat' split
  · exact hs
  · exact hs
  · exact hs
  · next htake =>
    have hfired := takeDue_claimsTied true hrun
    rw [htake] at hfired
    exact hfired
  · exact hs

/-! ## Claims lost -/

/-- An entry on a pin that loses its claim is the holder's, so the purge takes it (R67, R82). -/
theorem loseClaim_claimsTied {p : Port} {k : Pin} (why : Reason) {s : State} (hs : ClaimsTied s)
    (hholder : (s.pins.get k).holder = some p) : ClaimsTied (loseClaim p k why s) := by
  have hheld := (loseClaim_fireOnly p k why s).held
  obtain ⟨harmed, hwaiting⟩ := loseClaim_entries p k why s
  refine ⟨fun j => ?_, fun e he j hout => ?_⟩
  · rw [hheld, loseClaim_pins, Tab.get_upd]
    split
    · next hkj =>
      subst hkj
      exact PinTied_lostCell (hs.cells k) _
    · exact hs.cells j
  · have hmem : e ∈ s.sched.live ∧ e.drives p k = false := by
      rw [Schedule.live, harmed, hwaiting] at he
      rcases List.mem_append.1 he with he | he
      · obtain ⟨a, ha, rfl⟩ := List.mem_map.1 he
        obtain ⟨ha, hnot⟩ := List.mem_filter.1 ha
        exact ⟨List.mem_append_left _ (List.mem_map_of_mem ha), by simpa using hnot⟩
      · obtain ⟨he, hnot⟩ := List.mem_filter.1 he
        exact ⟨List.mem_append_right _ he, by simpa using hnot⟩
    have howner := hs.owners e hmem.1 j hout
    have hjk : k ≠ j := by
      rintro rfl
      have heq : e.owner = p := Option.some.inj (howner.symm.trans hholder)
      simp [Entry.drives, heq, hout] at hmem
    rw [loseClaim_pins, Tab.get_upd_ne _ _ hjk]
    exact howner

theorem expireClaims_claimsTied (p : Port) (ks : List Pin) {s : State} (hs : ClaimsTied s) :
    ClaimsTied (expireClaims p ks s) := by
  induction ks generalizing s with
  | nil => exact hs
  | cons k ks ih =>
    unfold expireClaims
    split
    · next hholds => exact ih ((loseClaim_claimsTied .lease hs (holdsPin_iff.1 hholds)).of_logOnly (post_logOnly _ _ _))
    · exact ih hs

theorem clearSettings_claimsTied (p : Port) {s : State} (hs : ClaimsTied s) : ClaimsTied (clearSettings p s) :=
  hs.of_same rfl rfl

theorem leaseExpiry_claimsTied (p : Port) {s : State} (hs : ClaimsTied s) : ClaimsTied (leaseExpiry p s) := by
  unfold leaseExpiry
  split
  · have hlost := clearSettings_claimsTied p (expireClaims_claimsTied p allPins hs)
    have hreported : ClaimsTied (leaseReported p s) :=
      (hlost.of_logOnly (expireSettings_logOnly p _)).of_logOnly (leaseReported_logOnly p s)
    unfold leaseReported claimsLost at hreported
    dsimp only
    generalize raiseClass p .claim _ = reported at hreported ⊢
    exact hreported.of_same rfl rfl
  · exact hs

theorem pinRelease_claimsTied (p : Port) (args : List Byte) {s : State} (hs : ClaimsTied s) :
    ClaimsTied (pinRelease p args s).state := by
  unfold pinRelease
  repeat' split
  · exact hs
  · exact hs
  · exact hs
  · next hholds => exact loseClaim_claimsTied .released hs (holdsPin_iff.1 (by simpa using hholds))

theorem PinCell.releasePort_of_holder {p : Port} {c : PinCell} (h : c.holder = some p) (rt : Nat) :
    c.releasePort p rt = lostCell rt c := by
  rw [releasePort, if_pos h, driveSafe, drive_eq]
  rfl

theorem PinCell.releasePort_of_not_holder {p : Port} {c : PinCell} (h : c.holder ≠ some p) (rt : Nat) :
    c.releasePort p rt = c := if_neg h

theorem portResetOf_pins (p : Port) (s : State) (k : Pin) :
    (portResetOf p s).pins.get k = (s.pins.get k).releasePort p s.time.rt := Tab.get_map _ _ _

/-- A port reset takes every entry of the port with its claims (R69, R89). -/
theorem portResetOf_claimsTied (p : Port) {s : State} (hs : ClaimsTied s) : ClaimsTied (portResetOf p s) := by
  refine ⟨fun k => ?_, fun e he k hout => ?_⟩
  · change PinTied s.sched.held _
    rw [portResetOf_pins]
    by_cases hholder : (s.pins.get k).holder = some p
    · rw [PinCell.releasePort_of_holder hholder]
      exact PinTied_lostCell (hs.cells k) _
    · rw [PinCell.releasePort_of_not_holder hholder]
      exact hs.cells k
  · have hmem : e ∈ s.sched.live ∧ e.owner ≠ p := by
      rcases List.mem_append.1 he with he | he
      · obtain ⟨a, ha, rfl⟩ := List.mem_map.1 he
        obtain ⟨ha, hnot⟩ := List.mem_filter.1 ha
        exact ⟨List.mem_append_left _ (List.mem_map_of_mem ha), of_decide_eq_true hnot⟩
      · obtain ⟨he, hnot⟩ := List.mem_filter.1 he
        exact ⟨List.mem_append_right _ he, of_decide_eq_true hnot⟩
    have howner := hs.owners e hmem.1 k hout
    rw [portResetOf_pins, PinCell.releasePort_of_not_holder (by rw [howner]; simpa using hmem.2)]
    exact howner

theorem prstnFall_claimsTied (p : Port) {s : State} (hs : ClaimsTied s) : ClaimsTied (prstnFall p s) := by
  have hpull : ClaimsTied (pullPrstn p s) := hs.of_same rfl rfl
  unfold prstnFall
  dsimp only
  repeat' split
  · exact hs
  · exact portResetOf_claimsTied p hpull
  · exact hpull

/-! ## Requests that drive, claim and configure -/

/-- A change of one cell that keeps its pin tied and its holder. -/
theorem ClaimsTied.upd_cell {s t : State} (hs : ClaimsTied s) {k : Pin} {f : PinCell → PinCell} (hsched : t.sched = s.sched)
    (hpins : t.pins = s.pins.upd k f) (htied : PinTied s.sched.held (f (s.pins.get k)))
    (hholder : (f (s.pins.get k)).holder = (s.pins.get k).holder) : ClaimsTied t := by
  refine hs.of_entriesLast (.of_eq (by rw [hsched]) (by rw [hsched])) (fun j => ?_) fun j => ?_
  · rw [hsched, hpins, Tab.get_upd]
    split
    · next hkj => exact hkj ▸ htied
    · exact hs.cells j
  · rw [hpins, Tab.get_upd]
    split
    · next hkj => rw [hkj] at hholder; exact hkj ▸ hholder
    · rfl

theorem contentionCheck_claimsTied (pin : Pin) (level : Level) {s : State} (hs : ClaimsTied s) :
    ClaimsTied (contentionCheck pin level s) := by
  have hidle : ClaimsTied { s with pins := s.pins.upd pin fun c => { c with check := none } } :=
    hs.upd_cell (f := fun c => { c with check := none }) rfl rfl (PinTied_checkIdle (hs.cells pin)) rfl
  unfold contentionCheck
  dsimp only
  repeat' split
  · exact hidle
  · exact hidle
  · exact hidle.of_logOnly (occur_logOnly _ _ _ _)
  · exact hs

theorem pinWrite_claimsTied (p : Port) (args : List Byte) {s : State} (hs : ClaimsTied s) :
    ClaimsTied (pinWrite p args s).state := by
  unfold pinWrite
  repeat' split
  · exact hs
  · exact hs
  · exact hs
  · exact hs
  · next pin level _ _ _ hholds hrun =>
    have hheld : s.sched.held = false := Bool.eq_false_of_not_eq_true hrun
    have hholder : (s.pins.get pin).holder = some p := holdsPin_iff.1 (by simpa using hholds)
    have hcell := hs.cells pin
    rw [hheld] at hcell
    refine hs.upd_cell rfl rfl ?_ (PinCell.drive_holder _ _ _)
    rw [hheld]
    exact PinTied_drive hcell (by rw [hholder]; exact Option.some_ne_none p) _ level
  · exact hs
  · exact hs

theorem cancel_claimsTied (p : Port) (args : List Byte) {s : State} (hs : ClaimsTied s) : ClaimsTied (cancel p args s).state := by
  unfold cancel
  dsimp only
  repeat' split
  · exact hs
  · next a hfind =>
    have hlive : a.entry ∈ s.sched.live := List.mem_append_left _ (List.mem_map_of_mem (List.mem_of_find?_eq_some hfind))
    have hdrive : ClaimsTied (cancelDrive a s) := by
      unfold cancelDrive
      repeat' split
      · exact hs
      · exact hs
      · next hrun =>
        have hheld : s.sched.held = false := Bool.eq_false_of_not_eq_true hrun
        refine hs.of_entriesLast (expiryDrive_shrinks a s).entriesLast (fun k => ?_) fun k => (hs.expiryDrive_cells hheld hlive k).2
        rw [expiryDrive_sched, hheld]
        exact (hs.expiryDrive_cells hheld hlive k).1
    exact hdrive.of_samePins ⟨rfl, rfl⟩ (removeTag_shrinks p _ _).entriesLast
  · exact hs.of_samePins ⟨rfl, rfl⟩ (removeTag_shrinks p _ _).entriesLast
  · exact hs

theorem pinClaim_claimsTied (p : Port) (args : List Byte) {s : State} (hs : ClaimsTied s) :
    ClaimsTied (pinClaim p args s).state := by
  unfold pinClaim
  repeat' split
  · exact hs
  · exact hs
  · exact hs
  · exact hs
  · exact hs
  · exact hs
  · next k _ _ hout _ hfree =>
    have hdir := isOut_iff.1 (by simpa using hout)
    refine ⟨fun j => ?_, fun e he j hdrives => ?_⟩
    · simp only [ok, Tab.get_upd]
      split
      · next hkj => exact hkj ▸ PinTied_claim (hs.cells k) hfree hdir p
      · exact hs.cells j
    · have howner := hs.owners e he j hdrives
      simp only [ok]
      rw [Tab.get_upd_ne]
      · exact howner
      · rintro rfl
        rw [hfree] at howner
        cases howner

/-- A pin that is not in use has no holder (R75). -/
theorem holder_of_not_inUse {k : Pin} {s : State} (h : s.pinInUse k = false) : (s.pins.get k).holder = none := by
  simp only [State.pinInUse, Bool.or_eq_false_iff] at h
  simpa using h.1.1

theorem pinConfigure_claimsTied (p : Port) (args : List Byte) (level : Level) {s : State} (hs : ClaimsTied s) :
    ClaimsTied (pinConfigure p args level s).state := by
  unfold pinConfigure
  repeat' split
  · exact hs
  · exact hs
  · exact hs
  · exact hs
  · exact hs
  · next k m _ _ hfree =>
    refine hs.upd_cell rfl rfl (PinTied_configure (hs.cells k) (fun hdir => ?_) _) (PinCell.configure_holder _ _ _ _)
    exact holder_of_not_inUse (Bool.eq_false_of_not_eq_true fun hused => hfree ⟨hdir, hused⟩)

/-! ## Resets and the load -/

theorem hubResetAll_claimsTied (byRequest : Bool) (s : State) : ClaimsTied (hubResetAll byRequest s) := by
  refine .of_empty (fun k => ?_) rfl
  rw [hubResetAll_pins, Tab.get_map]
  exact PinTied_hubReset _ _

theorem powerOnValues_claimsTied (s : State) : ClaimsTied (powerOnValues s) := by
  refine .of_empty (fun k => ?_) rfl
  change PinTied false ((Tab.fill 24 PinCell.reset).get k)
  rw [Tab.get_fill]
  decide

theorem powerLoss_claimsTied {s : State} (hs : ClaimsTied s) : ClaimsTied (powerLoss s) := by
  unfold powerLoss
  split
  · exact (powerOnValues_claimsTied s).of_same rfl rfl
  · exact hs

theorem resetnFall_claimsTied {s : State} (hs : ClaimsTied s) : ClaimsTied (resetnFall s) := by
  unfold resetnFall
  dsimp only
  repeat' split
  · exact hs
  · exact hubResetAll_claimsTied false _
  · exact hs.of_same rfl rfl

/-- A load finds no claim and no entry (R70, R90). -/
theorem settingsLoad_claimsTied (levels : BitVec 24) (begun : BitVec 4) {s : State} (hs : ClaimsTied s)
    (hempty : EmptyBeforeLoad s) : ClaimsTied (settingsLoad levels begun s) := by
  unfold settingsLoad
  split
  · exact hs
  · next kind hkind =>
    obtain ⟨hlive, hfree, -⟩ := hempty (by rw [hkind]; exact Option.some_ne_none kind)
    have hput : ∀ w valid, ClaimsTied (putSettings kind w valid levels begun s) := fun w valid => by
      refine .of_empty (fun k => ?_) hlive
      change PinTied s.sched.held (Tab.get (.build _) k)
      rw [Tab.get_build]
      exact PinTied_load (hfree k) _ _ _
    repeat' split
    · exact hput _ true
    · exact (hput _ false).of_logOnly (occur_logOnly _ _ _ _)
    · exact hs

/-! ## The commands that leave the pins alone -/

theorem request_samePins {p : Port} {code : Byte} {s : State} {rule : State → Reply} (h : SamePins s (rule s).state) :
    SamePins s (request p code s rule) := by
  rcases request_cases p code s rule with ⟨e, -⟩ | ⟨e, -⟩ <;> rw [e]
  · exact ⟨rfl, rfl⟩
  · exact h.trans ⟨rfl, rfl⟩

theorem request_claimsTied {p : Port} {code : Byte} {s : State} {rule : State → Reply} (hs : ClaimsTied s)
    (h : ClaimsTied (rule s).state) : ClaimsTied (request p code s rule) := by
  rcases request_cases p code s rule with ⟨e, -⟩ | ⟨e, -⟩ <;> rw [e]
  · exact hs.of_same rfl rfl
  · exact h.of_same rfl rfl

theorem miss_samePins (s : State) : SamePins s (miss s) := by
  have hcount : SamePins s (countMiss s) := ⟨rfl, rfl⟩
  unfold miss
  dsimp only
  repeat' split
  · exact hcount.trans ((SamePins.of_logOnly (occur_logOnly _ _ _ _)).trans (enterState_samePins_after _ _ _))
  · exact hcount
  · exact .refl s

theorem storeCompletion_samePins (verified : Bool) (s : State) : SamePins s (storeCompletion verified s) := by
  unfold storeCompletion
  split
  · exact .refl s
  · exact .refl s
  · next snapshot takenAt freeze _ =>
    have hdone : SamePins s (postStoreDone s.settings.requester verified
        { s with settings := s.settings.finishWrite verified snapshot freeze }) :=
      (SamePins.of_logOnly (postStoreDone_logOnly _ _ _)).after ⟨rfl, rfl⟩
    dsimp only
    repeat' split
    · exact hdone
    · exact hdone.trans (.of_logOnly (occur_logOnly _ _ _ _))
    · exact .refl s

theorem badFrame_samePins (p : Port) (bytes : List Byte) (trailing : Nat) (s : State) :
    SamePins s (badFrame p bytes trailing s) := by
  unfold badFrame
  repeat' split
  · exact .refl s
  · exact (SamePins.of_logOnly (occur_logOnly _ _ _ _)).after ⟨rfl, rfl⟩
  · exact ⟨rfl, rfl⟩

theorem unknownRequest_samePins (p : Port) (code : Byte) (args : List Byte) (s : State) :
    SamePins s (unknownRequest p code args s) := by
  unfold unknownRequest
  split
  · exact .refl s
  · exact request_samePins (.refl s)

theorem resultRead_samePins (p : Port) (s : State) : SamePins s (resultRead p s) := by
  unfold resultRead
  split <;> exact ⟨rfl, rfl⟩

theorem prstnRise_samePins (p : Port) (begun : Bool) (s : State) : SamePins s (prstnRise p begun s) := by
  unfold prstnRise
  split <;> exact ⟨rfl, rfl⟩

theorem refConfigure_samePins (p : Port) (args : List Byte) (s : State) : SamePins s (refConfigure p args s).state := by
  unfold refConfigure
  repeat' split
  · exact .refl s
  · exact .refl s
  · exact .refl s
  · exact enterState_samePins_after _ _ s

theorem disciplineProfile_samePins (p : Port) (args : List Byte) (s : State) : SamePins s (disciplineProfile p args s).state := by
  unfold disciplineProfile
  dsimp only
  repeat' split
  all_goals exact ⟨rfl, rfl⟩

theorem disciplineStatus_samePins (p : Port) (args : List Byte) (s : State) : SamePins s (disciplineStatus p args s).state := by
  unfold disciplineStatus
  split <;> exact ⟨rfl, rfl⟩

theorem scheduleConfigure_samePins (p : Port) (args : List Byte) (s : State) : SamePins s (scheduleConfigure p args s).state := by
  unfold scheduleConfigure
  dsimp only
  repeat' split
  all_goals exact ⟨rfl, rfl⟩

theorem subscribe_samePins (p : Port) (args : List Byte) (s : State) : SamePins s (subscribe p args s).state := by
  unfold subscribe
  repeat' split
  all_goals exact ⟨rfl, rfl⟩

theorem eventRead_samePins (p : Port) (args : List Byte) (s : State) : SamePins s (eventRead p args s).state := by
  unfold eventRead
  dsimp only
  repeat' split
  all_goals exact ⟨rfl, rfl⟩

theorem ringConfigure_samePins (p : Port) (args : List Byte) (s : State) : SamePins s (ringConfigure p args s).state := by
  unfold ringConfigure ok
  dsimp only
  repeat' split
  all_goals exact ⟨rfl, rfl⟩

theorem vectorConfigure_samePins (p : Port) (args : List Byte) (s : State) : SamePins s (vectorConfigure p args s).state := by
  unfold vectorConfigure
  repeat' split
  all_goals exact ⟨rfl, rfl⟩

theorem vectorAck_samePins (p : Port) (args : List Byte) (s : State) : SamePins s (vectorAck p args s).state := by
  unfold vectorAck
  dsimp only
  repeat' split
  all_goals exact ⟨rfl, rfl⟩

theorem notifyControl_samePins (p : Port) (args : List Byte) (s : State) : SamePins s (notifyControl p args s).state := by
  unfold notifyControl
  repeat' split
  all_goals exact ⟨rfl, rfl⟩

theorem faultClear_samePins (p : Port) (args : List Byte) (s : State) : SamePins s (faultClear p args s).state := by
  unfold faultClear
  repeat' split
  all_goals exact ⟨rfl, rfl⟩

theorem faultConfigure_samePins (p : Port) (args : List Byte) (s : State) : SamePins s (faultConfigure p args s).state := by
  unfold faultConfigure
  repeat' split
  all_goals exact ⟨rfl, rfl⟩

theorem faultRecordClear_samePins (p : Port) (args : List Byte) (s : State) : SamePins s (faultRecordClear p args s).state := by
  unfold faultRecordClear
  repeat' split
  all_goals exact ⟨rfl, rfl⟩

theorem settingsClaim_samePins (p : Port) (args : List Byte) (s : State) : SamePins s (settingsClaim p args s).state := by
  unfold settingsClaim
  repeat' split
  all_goals exact ⟨rfl, rfl⟩

theorem settingsRelease_samePins (p : Port) (args : List Byte) (s : State) : SamePins s (settingsRelease p args s).state := by
  unfold settingsRelease
  repeat' split
  all_goals exact ⟨rfl, rfl⟩

theorem portLimitsSet_samePins (p : Port) (args : List Byte) (s : State) : SamePins s (portLimitsSet p args s).state := by
  unfold portLimitsSet
  dsimp only
  repeat' split
  all_goals exact ⟨rfl, rfl⟩

theorem writeStore_samePins (p : Port) (args : List Byte) (freeze : Bool) (s : State) :
    SamePins s (writeStore p args freeze s).state := by
  unfold writeStore
  repeat' split
  all_goals exact ⟨rfl, rfl⟩

theorem leaseSet_samePins (p : Port) (args : List Byte) (s : State) : SamePins s (leaseSet p args s).state := by
  unfold leaseSet
  repeat' split
  all_goals exact ⟨rfl, rfl⟩

theorem leaseRenew_samePins (p : Port) (args : List Byte) (s : State) : SamePins s (leaseRenew p args s).state := by
  unfold leaseRenew
  split <;> exact ⟨rfl, rfl⟩

/-- The commands besides those of `movesEntries` that drive, claim, release or configure pins, or hold the schedule. -/
def drivesPins : Instr → Bool
  | .contentionCheck _ _ | .leaseExpiry _ | .holdNotice | .prstnFall _ | .portReset _ _ | .cancel _ _ | .hold _ _
  | .pinConfigure _ _ _ | .pinClaim _ _ | .pinRelease _ _ | .pinWrite _ _ => true
  | _ => false

theorem exec_samePins {c : Instr} {s t : State} (h : exec c s = .next t) (hmoves : movesEntries c = false)
    (hc : drivesPins c = false) : SamePins s t := by
  cases c with
  | powerOn | powerLoss | resetnFall | hubReset | settingsLoad | advance | expiry | activeEdge | transition
  | debounceWindowEnd | timeSet | scheduleAt | scheduleOnEdge | resume | portLimitsSet => cases hmoves
  | contentionCheck | leaseExpiry | holdNotice | prstnFall | portReset | cancel | hold | pinConfigure | pinClaim
  | pinRelease | pinWrite => cases hc
  | miss => cases h; exact miss_samePins s
  | storeCompletion verified => cases h; exact storeCompletion_samePins verified s
  | badFrame p bytes trailing => cases h; exact badFrame_samePins p bytes trailing s
  | unknownRequest p code args => cases h; exact unknownRequest_samePins p code args s
  | resultRead p => cases h; exact resultRead_samePins p s
  | identify p args => cases h; exact request_samePins (.of_eq (identify_state p args s))
  | portStatus p args => cases h; exact request_samePins (.of_eq (portStatus_state p args s))
  | leaseSet p args => cases h; exact request_samePins (leaseSet_samePins p args s)
  | leaseRenew p args => cases h; exact request_samePins (leaseRenew_samePins p args s)
  | timeRead p args => cases h; exact request_samePins (.of_eq (timeRead_state args s))
  | timeReadScaled p args => cases h; exact request_samePins (.of_eq (timeReadScaled_state args s))
  | refConfigure p args => cases h; exact request_samePins (refConfigure_samePins p args s)
  | disciplineProfile p args => cases h; exact request_samePins (disciplineProfile_samePins p args s)
  | disciplineStatus p args => cases h; exact request_samePins (disciplineStatus_samePins p args s)
  | entryQuery p args => cases h; exact request_samePins (.of_eq (entryQuery_state p args s))
  | scheduleList p args => cases h; exact request_samePins (.of_eq (scheduleList_state p args s))
  | scheduleConfigure p args => cases h; exact request_samePins (scheduleConfigure_samePins p args s)
  | pinRead p args => cases h; exact request_samePins (.of_eq (pinRead_state args s))
  | subscribe p args => cases h; exact request_samePins (subscribe_samePins p args s)
  | eventRead p args => cases h; exact request_samePins (eventRead_samePins p args s)
  | ringConfigure p args => cases h; exact request_samePins (ringConfigure_samePins p args s)
  | vectorConfigure p args => cases h; exact request_samePins (vectorConfigure_samePins p args s)
  | vectorAck p args => cases h; exact request_samePins (vectorAck_samePins p args s)
  | notifyControl p args => cases h; exact request_samePins (notifyControl_samePins p args s)
  | vectorRead p args => cases h; exact request_samePins (.of_eq (vectorRead_state p args s))
  | faultRead p args => cases h; exact request_samePins (.of_eq (faultRead_state args s))
  | faultClear p args => cases h; exact request_samePins (faultClear_samePins p args s)
  | faultConfigure p args => cases h; exact request_samePins (faultConfigure_samePins p args s)
  | faultRecordClear p args => cases h; exact request_samePins (faultRecordClear_samePins p args s)
  | settingsClaim p args => cases h; exact request_samePins (settingsClaim_samePins p args s)
  | settingsRelease p args => cases h; exact request_samePins (settingsRelease_samePins p args s)
  | settingsRead p args => cases h; exact request_samePins (.of_eq (settingsRead_state args s))
  | storeWrite p args => cases h; exact request_samePins (writeStore_samePins p args _ s)
  | storeFreeze p args => cases h; exact request_samePins (writeStore_samePins p args _ s)
  | prstnRise rise => cases h; exact prstnRise_samePins _ _ s
  | resetnRise => cases h; exact ⟨rfl, rfl⟩

/-! ## Every command -/

theorem portReset_claimsTied {p : Port} {args : List Byte} {s t : State} (h : exec (.portReset p args) s = .next t)
    (hs : ClaimsTied s) : ClaimsTied t := by
  cases h
  repeat' split
  · exact request_claimsTied hs hs
  · exact portResetOf_claimsTied p hs
  · exact hs.of_same rfl rfl

theorem hubReset_claimsTied {p : Port} {args : List Byte} {s t : State} (h : exec (.hubReset p args) s = .next t)
    (hs : ClaimsTied s) : ClaimsTied t := by
  cases h
  repeat' split
  · exact request_claimsTied hs hs
  · exact hubResetAll_claimsTied true s
  · exact hs.of_same rfl rfl

theorem portLimitsSet_claimsTied (p : Port) (args : List Byte) {s : State} (hs : ClaimsTied s) :
    ClaimsTied (portLimitsSet p args s).state :=
  hs.of_same (portLimitsSet_samePins p args s).pins (portLimitsSet_sched p args s)

section
variable {c : Instr} {s t : State} (h : exec c s = .next t) (hs : ClaimsTied s)
include h hs

theorem exec_keeps_claimsTied_of_drives (hc : drivesPins c = true) : ClaimsTied t := by
  unfold drivesPins at hc
  split at hc
  · cases h; exact contentionCheck_claimsTied _ _ hs
  · cases h; exact leaseExpiry_claimsTied _ hs
  · cases h; exact takeHoldNotice_claimsTied hs
  · cases h; exact prstnFall_claimsTied _ hs
  · exact portReset_claimsTied h hs
  · cases h; exact request_claimsTied hs (cancel_claimsTied _ _ hs)
  · cases h; exact request_claimsTied hs (hold_claimsTied _ _ hs)
  · cases h; exact request_claimsTied hs (pinConfigure_claimsTied _ _ _ hs)
  · cases h; exact request_claimsTied hs (pinClaim_claimsTied _ _ hs)
  · cases h; exact request_claimsTied hs (pinRelease_claimsTied _ _ hs)
  · cases h; exact request_claimsTied hs (pinWrite_claimsTied _ _ hs)
  · cases hc

/-- The commands of `movesEntries`; only a load needs the emptiness before it. -/
theorem exec_keeps_claimsTied_of_moves (hempty : EmptyBeforeLoad s) (hc : movesEntries c = true) : ClaimsTied t := by
  unfold movesEntries at hc
  split at hc
  · cases h; exact powerOnValues_claimsTied s
  · cases h; exact powerLoss_claimsTied hs
  · cases h; exact resetnFall_claimsTied hs
  · exact hubReset_claimsTied h hs
  · cases h; exact settingsLoad_claimsTied _ _ hs hempty
  · cases h
    split
    · exact hs.of_same rfl rfl
    · exact hs
  · cases h
    unfold expiry
    split
    · exact takeDue_claimsTied false hs
    · exact hs
  · cases h; exact activeEdge_claimsTied _ hs
  · cases h; exact transition_claimsTied _ _ hs
  · cases h; exact debounceWindowEnd_claimsTied _ _ hs
  · cases h; exact request_claimsTied hs (timeSet_claimsTied _ _ hs)
  · cases h; exact request_claimsTied hs (scheduleAt_claimsTied _ _ hs)
  · cases h; exact request_claimsTied hs (scheduleOnEdge_claimsTied _ _ hs)
  · cases h; exact request_claimsTied hs (resume_claimsTied _ _ hs)
  · cases h; exact request_claimsTied hs (portLimitsSet_claimsTied _ _ hs)
  · cases hc

theorem exec_keeps_claimsTied (hempty : EmptyBeforeLoad s) : ClaimsTied t := by
  cases hmoves : movesEntries c with
  | true => exact exec_keeps_claimsTied_of_moves h hs hempty hmoves
  | false =>
    cases hdrives : drivesPins c with
    | true => exact exec_keeps_claimsTied_of_drives h hs hdrives
    | false => exact hs.of_samePins (exec_samePins h hmoves hdrives) (exec_shrinks h hmoves).entriesLast

end

theorem exec_keeps_pinsTied {c : Instr} {s t : State} (h : exec c s = .next t) (hs : PinsTied s) : PinsTied t := by
  obtain ⟨hclaims, hempty⟩ := pinsTied_iff.1 hs
  exact pinsTied_iff.2 ⟨exec_keeps_claimsTied h hclaims hempty, exec_keeps_emptyBeforeLoad h hempty⟩

/-- Settles O43: `exec_keeps_pinsTied` for the command at the front of the queue. -/
theorem everyStepKeepsPinsAndClaims : Obligations.EveryStepKeepsPinsAndClaims := fun _ _ hs h =>
  step_keeps (P := PinsTied) (fun _ _ h => h) exec_keeps_pinsTied hs h

end Sys2Proof.Machine
end

section
/-! SUPPORT. The requests of the pin unit and the settings claim, check by check (R75 to R78, R83, R104, R169, R170), and the contention
check (R87, R88). -/

namespace Sys2Proof.Machine

open Sys2Proof.Safety

/-! ## Checks shared by the requests -/

theorem boolOfCode_of_ge {n : Nat} (h : 2 ≤ n) : boolOfCode n = none := by
  cases hread : boolOfCode n with
  | none => rfl
  | some b => exact absurd (boolOfCode_eq_some hread) (Nat.not_lt.2 h)

theorem directionOfCode_code (dir : Direction) : Direction.ofCode (b1 dir.code).toNat = some dir := by
  cases dir <;> rfl

theorem isOut_of_not_output {k : Pin} {s : State} (h : (s.pins.get k).map.dir ≠ .output) : s.isOut k = false :=
  decide_eq_false h

theorem holdsPin_of_not_holder {p : Port} {k : Pin} {s : State} (h : (s.pins.get k).holder ≠ some p) : s.holdsPin p k = false :=
  decide_eq_false h

theorem leaseExpired_of_expired {p : Port} {s : State} (h : (s.ports.get p).lease = .expired) : s.leaseExpired p = true :=
  decide_eq_true h

theorem leaseExpired_of_not_expired {p : Port} {s : State} (h : (s.ports.get p).lease ≠ .expired) : s.leaseExpired p = false :=
  decide_eq_false h

theorem request_heldBy {p h : Port} {code : Byte} {s : State} {rule : State → Reply} (htakes : s.takesFrames p = true)
    (hrule : rule s = refuseHeldBy s h) : request p code s rule = answer p ⟨.heldBy, code, [b1 h.val]⟩ s := by
  rw [request_taken htakes, hrule]
  rfl

/-! ## PIN WRITE -/

theorem pinWrite_of_args {p : Port} {args : List Byte} (h : args.length ≠ 2 ∨ 24 ≤ fld args 0 1 ∨ 2 ≤ fld args 1 1) (s : State) :
    pinWrite p args s = refuse s .badArgument := by
  unfold pinWrite
  split
  · rfl
  · next hlength =>
    rcases h.resolve_left hlength with hpin | hlevel
    · rw [pinOfCode_of_ge hpin]
    · rw [boolOfCode_of_ge hlevel]
      cases pinOfCode (fld args 0 1) <;> rfl

/-- Checks 2 to 4 of R83, on the bytes of a PIN WRITE. -/
theorem pinWrite_pin (p : Port) (k : Pin) (level : Level) (s : State) : pinWrite p [b1 k.val, bBool level] s =
    if !s.isOut k then refuse s .wrongDirection
    else if !s.holdsPin p k then refuse s .notOwner
    else if s.sched.held then refuse s .wrongState
    else ok (levelDrive k level s) [b1 k.val, bBool level] := by
  rw [pinWrite, if_neg (by simp), fld_cons_zero, fld_cons_succ, fld_cons_zero, pinOfCode_val, boolOfCode_bBool]

theorem PinCell.drive_of_out {c : PinCell} (h : c.map.dir = .output) (rt : Nat) (level : Level) : c.drive rt level =
    if c.driven = some level then c else { c with driven := some level, check := some (rt + 2000) } := by
  rw [drive, if_pos h, settleNs]

section
variable {p : Port} {k : Pin} {level : Level} {s : State}

theorem pinWrite_of_direction (hdir : (s.pins.get k).map.dir ≠ .output) :
    pinWrite p [b1 k.val, bBool level] s = refuse s .wrongDirection := by
  rw [pinWrite_pin, isOut_of_not_output hdir]
  rfl

variable (hdir : (s.pins.get k).map.dir = .output)
include hdir

theorem pinWrite_of_not_holder (hnot : (s.pins.get k).holder ≠ some p) :
    pinWrite p [b1 k.val, bBool level] s = refuse s .notOwner := by
  rw [pinWrite_pin, isOut_iff.2 hdir, holdsPin_of_not_holder hnot]
  rfl

variable (hholder : (s.pins.get k).holder = some p)
include hholder

theorem pinWrite_of_held (hheld : s.sched.held = true) : pinWrite p [b1 k.val, bBool level] s = refuse s .wrongState := by
  rw [pinWrite_pin, isOut_iff.2 hdir, holdsPin_iff.2 hholder, hheld]
  rfl

theorem pinWrite_of_run (hrun : s.sched.held = false) :
    pinWrite p [b1 k.val, bBool level] s = ok (levelDrive k level s) [b1 k.val, bBool level] := by
  rw [pinWrite_pin, isOut_iff.2 hdir, holdsPin_iff.2 hholder, hrun]
  rfl

end

/-- Settles O40: the checks of R83 in order, and the drive of an OUT pin. -/
theorem pinWriteDrivesTheLevel : Obligations.PinWriteDrivesTheLevel := by
  intro p args s htakes
  refine ⟨fun hargs => congrArg _ (request_refused htakes (pinWrite_of_args hargs s)), ?_⟩
  rintro k level rfl
  refine ⟨fun hdir => ?direction, fun hdir hnot => ?claim, fun hdir hholder hheld => ?held, fun hdir hholder hrun => ?passing⟩
  case direction => exact congrArg _ (request_refused htakes (pinWrite_of_direction hdir))
  case claim => exact congrArg _ (request_refused htakes (pinWrite_of_not_holder hdir hnot))
  case held => exact congrArg _ (request_refused htakes (pinWrite_of_held hdir hholder hheld))
  case passing =>
    rw [← PinCell.drive_of_out hdir]
    exact congrArg _ (request_carried htakes (pinWrite_of_run hdir hholder hrun))

/-! ## CONTENTION_CHECK -/

/-- The state with the contention check of a pin idle (R87). -/
def checkIdle (k : Pin) (s : State) : State := { s with pins := s.pins.set k { s.pins.get k with check := none } }

theorem contentionCheck_before {k : Pin} {point : Nat} {s : State} (hcheck : (s.pins.get k).check = some point)
    (h : s.time.rt < point) (level : Level) : contentionCheck k level s = s := by
  have hnot : s.checkDue k = false := by simp [State.checkDue, hcheck, h]
  rw [contentionCheck, hnot]
  rfl

theorem contentionCheck_reached {k : Pin} {point : Nat} {driven : Level} {s : State} (hpowered : s.powered = true)
    (hcheck : (s.pins.get k).check = some point) (h : point ≤ s.time.rt) (hdriven : (s.pins.get k).driven = some driven)
    (level : Level) : contentionCheck k level s =
      if level = driven then checkIdle k s else occur .pinContention none (.contention k driven) (checkIdle k s) := by
  have hdue : s.checkDue k = true := by simp [State.checkDue, hpowered, hcheck, h]
  rw [contentionCheck, if_pos hdue, hdriven]
  rfl

theorem exec_contentionCheck (k : Pin) (level : Level) (s : State) :
    exec (.contentionCheck k level) s = .next (contentionCheck k level s) := rfl

/-- Settles O42: the check before its point and from it on. -/
theorem contentionCheckComparesLevels : Obligations.ContentionCheckComparesLevels := by
  intro k level driven point s hpowered hcheck
  rw [exec_contentionCheck]
  refine ⟨fun hbefore => by rw [contentionCheck_before hcheck hbefore], fun hreached hdriven => ?_⟩
  refine ⟨checkIdle k s, _, rfl, rfl, ?_⟩
  rw [contentionCheck_reached hpowered hcheck hreached hdriven]
  refine ⟨fun hsame => if_pos hsame, fun hdiffer => ?_⟩
  rw [if_neg hdiffer]
  refine ⟨rfl, occur_logOnly _ _ _ _, ?_⟩
  rw [occur_count (by decide), if_pos rfl]
  rfl

/-! ## PIN CLAIM -/

theorem pinClaim_of_args {p : Port} {args : List Byte} (h : args.length ≠ 1 ∨ 24 ≤ fld args 0 1) (s : State) :
    pinClaim p args s = refuse s .badArgument := by
  unfold pinClaim
  split
  · rfl
  · next hlength => rw [pinOfCode_of_ge (h.resolve_left hlength)]

/-- The pin with its claim given to `p` (R78). -/
def pinGiven (p : Port) (k : Pin) (s : State) : State := { s with pins := s.pins.set k { s.pins.get k with holder := some p } }

/-- Checks 2 to 4 of R78, on the byte of a PIN CLAIM; the last is who holds the pin. -/
theorem pinClaim_pin (p : Port) (k : Pin) (s : State) : pinClaim p [b1 k.val] s =
    if s.leaseExpired p then refuse s .lapsed
    else if !s.isOut k then refuse s .wrongDirection
    else match (s.pins.get k).holder with
      | some h => if h = p then ok s [b1 k.val, b1 p.val] else refuseHeldBy s h
      | none => ok (pinGiven p k s) [b1 k.val, b1 p.val] := by
  rw [pinClaim, if_neg (by simp), fld_cons_zero, pinOfCode_val]
  rfl

section
variable {p : Port} {k : Pin} {s : State}

theorem pinClaim_of_lapsed (h : (s.ports.get p).lease = .expired) : pinClaim p [b1 k.val] s = refuse s .lapsed := by
  rw [pinClaim_pin, if_pos (leaseExpired_of_expired h)]

variable (hlease : (s.ports.get p).lease ≠ .expired)
include hlease

theorem pinClaim_of_direction (hdir : (s.pins.get k).map.dir ≠ .output) : pinClaim p [b1 k.val] s = refuse s .wrongDirection := by
  rw [pinClaim_pin, leaseExpired_of_not_expired hlease, isOut_of_not_output hdir]
  rfl

variable (hdir : (s.pins.get k).map.dir = .output)
include hdir

theorem pinClaim_of_other {h : Port} (hholder : (s.pins.get k).holder = some h) (hne : h ≠ p) :
    pinClaim p [b1 k.val] s = refuseHeldBy s h := by
  rw [pinClaim_pin, leaseExpired_of_not_expired hlease, isOut_iff.2 hdir, hholder]
  exact if_neg hne

theorem pinClaim_of_own (hholder : (s.pins.get k).holder = some p) :
    pinClaim p [b1 k.val] s = ok s [b1 k.val, b1 p.val] := by
  rw [pinClaim_pin, leaseExpired_of_not_expired hlease, isOut_iff.2 hdir, hholder]
  exact if_pos rfl

theorem pinClaim_of_free (hfree : (s.pins.get k).holder = none) :
    pinClaim p [b1 k.val] s = ok (pinGiven p k s) [b1 k.val, b1 p.val] := by
  rw [pinClaim_pin, leaseExpired_of_not_expired hlease, isOut_iff.2 hdir, hfree]
  rfl

end

/-! ## SETTINGS CLAIM and SETTINGS RELEASE -/

theorem settingsClaim_of_args {p : Port} {args : List Byte} (h : args ≠ []) (s : State) :
    settingsClaim p args s = refuse s .badArgument := by
  rw [settingsClaim, if_pos (by simpa using h)]

theorem settingsClaim_of_lapsed {p : Port} {s : State} (h : (s.ports.get p).lease = .expired) :
    settingsClaim p [] s = refuse s .lapsed := by
  rw [settingsClaim, if_neg (by simp), leaseExpired_of_expired h]
  rfl

section
variable {p : Port} {s : State} (hlease : (s.ports.get p).lease ≠ .expired)
include hlease

theorem settingsClaim_of_other {h : Port} (hholder : s.settings.holder = some h) (hne : h ≠ p) :
    settingsClaim p [] s = refuseHeldBy s h := by
  rw [settingsClaim, if_neg (by simp), leaseExpired_of_not_expired hlease, hholder]
  exact if_neg hne

theorem settingsClaim_of_own (hholder : s.settings.holder = some p) : settingsClaim p [] s = ok s [b1 p.val] := by
  rw [settingsClaim, if_neg (by simp), leaseExpired_of_not_expired hlease, hholder]
  exact if_pos rfl

theorem settingsClaim_of_busy (hfree : s.settings.holder = none) (hwriting : s.settings.store.isWriting = true) :
    settingsClaim p [] s = refuse s .storeBusy := by
  rw [settingsClaim, if_neg (by simp), leaseExpired_of_not_expired hlease, hfree, hwriting]
  rfl

theorem settingsClaim_of_free (hfree : s.settings.holder = none) (hidle : s.settings.store.isWriting = false) :
    settingsClaim p [] s = ok { s with settings := { s.settings with holder := some p } } [b1 p.val] := by
  simp [settingsClaim, leaseExpired_of_not_expired hlease, hfree, hidle]

end

theorem settingsRelease_of_holder {p : Port} {s : State} (h : s.settings.holder = some p) :
    settingsRelease p [] s = ok { s with settings := { s.settings with holder := none } } [] := by
  simp [settingsRelease, holdsSettings_of_holder h]

theorem settingsRelease_of_not_holder {p : Port} {s : State} (h : s.settings.holder ≠ some p) :
    settingsRelease p [] s = refuse s .notOwner := by
  simp [settingsRelease, holdsSettings_of_not_holder h]

/-- Settles O38: each request's checks in order, the last of them being who holds the claim. -/
theorem claimsAreGrantedOneAtATime : Obligations.ClaimsAreGrantedOneAtATime := by
  intro p s htakes
  refine ⟨fun args hargs => ?pinArgs, fun args hargs => ?settingsArgs,
    fun k => ⟨fun hlapsed => ?pinLapsed, fun hlease => ⟨fun hdir => ?pinDirection, fun hdir =>
      ⟨fun h hholder hne => ?pinOther, fun hholder => ?pinOwn, fun hfree => ?pinFree⟩⟩⟩,
    fun hlapsed => ?settingsLapsed,
    fun hlease => ⟨fun h hholder hne => ?settingsOther, fun hholder => ?settingsOwn, fun hfree hwriting => ?settingsBusy,
      fun hfree hidle => ?settingsFree⟩,
    fun hholder => ?release, fun hnot => ?notOwner⟩
  case pinArgs => exact congrArg _ (request_refused htakes (pinClaim_of_args hargs s))
  case pinLapsed => exact congrArg _ (request_refused htakes (pinClaim_of_lapsed hlapsed))
  case pinDirection => exact congrArg _ (request_refused htakes (pinClaim_of_direction hlease hdir))
  case pinOther => exact congrArg _ (request_heldBy htakes (pinClaim_of_other hlease hdir hholder hne))
  case pinOwn => exact congrArg _ (request_carried htakes (pinClaim_of_own hlease hdir hholder))
  case pinFree => exact congrArg _ (request_carried htakes (pinClaim_of_free hlease hdir hfree))
  case settingsArgs => exact congrArg _ (request_refused htakes (settingsClaim_of_args hargs s))
  case settingsLapsed => exact congrArg _ (request_refused htakes (settingsClaim_of_lapsed hlapsed))
  case settingsOther => exact congrArg _ (request_heldBy htakes (settingsClaim_of_other hlease hholder hne))
  case settingsOwn => exact congrArg _ (request_carried htakes (settingsClaim_of_own hlease hholder))
  case settingsBusy => exact congrArg _ (request_refused htakes (settingsClaim_of_busy hlease hfree hwriting))
  case settingsFree => exact congrArg _ (request_carried htakes (settingsClaim_of_free hlease hfree hidle))
  case release => exact congrArg _ (request_carried htakes (settingsRelease_of_holder hholder))
  case notOwner => exact congrArg _ (request_refused htakes (settingsRelease_of_not_holder hnot))

/-! ## PIN CONFIGURE -/

/-- PIN CONFIGURE reads its argument bytes as R203 lays them out. -/
theorem readPinMap_bytes (k : Pin) {m : PinMap} (h : m.debounceUs ≤ 1023) : readPinMap (pinMapBytes k m) = some (k, m) := by
  have hpin : fld (pinMapBytes k m) 0 1 = (b1 k.val).toNat := fld_cons_zero _ _
  have hdir : fld (pinMapBytes k m) 1 1 = (b1 m.dir.code).toNat := (fld_cons_succ _ _ _ _).trans (fld_cons_zero _ _)
  have hsafe : fld (pinMapBytes k m) 2 1 = (bBool m.safe).toNat :=
    (fld_cons_succ _ _ _ _).trans ((fld_cons_succ _ _ _ _).trans (fld_cons_zero _ _))
  have hdebounce : fld (pinMapBytes k m) 3 2 = m.debounceUs := by
    rw [pinMapBytes, fld_append_right (by simp), List.length_cons, List.length_cons, List.length_singleton, fld_beN,
      Nat.mod_eq_of_lt (by omega)]
  simp [readPinMap, hpin, hdir, hsafe, hdebounce, pinOfCode_val, directionOfCode_code, boolOfCode_bBool, h, -toNat_b1]

/-- R75: what makes a pin in use. -/
theorem pinInUse_iff {k : Pin} {s : State} : s.pinInUse k = true ↔
    (s.pins.get k).holder ≠ none ∨ (∃ q, (s.subs.get q).get k ≠ .none) ∨
      ∃ e ∈ s.sched.live, e.action.outPin = some k ∨ e.inPin = some k := by
  simp only [State.pinInUse, Bool.or_eq_true, Option.isSome_iff_ne_none, List.any_eq_true, decide_eq_true_eq, mem_allPorts,
    true_and, or_assoc]

section
variable {p : Port} {k : Pin} {m : PinMap} {s : State} (hholder : s.settings.holder = some p) (hdebounce : m.debounceUs ≤ 1023)
include hholder hdebounce

/-- The checks of R75 behind the length and the settings claim, on the bytes of a PIN CONFIGURE. -/
theorem pinConfigure_pin (level : Level) : pinConfigure p (pinMapBytes k m) level s =
    if s.settings.frozen then refuse s .frozen
    else if (s.pins.get k).map.dir ≠ m.dir ∧ s.pinInUse k then refuse s .inUse
    else ok (pinConfigured k m level s) (pinMapBytes k m) := by
  rw [pinConfigure, if_neg (by simp [pinMapBytes]), if_neg (by simp [holdsSettings_of_holder hholder]),
    readPinMap_bytes k hdebounce]

theorem pinConfigure_frozen (hfrozen : s.settings.frozen = true) (level : Level) :
    pinConfigure p (pinMapBytes k m) level s = refuse s .frozen := by
  rw [pinConfigure_pin hholder hdebounce, if_pos hfrozen]

variable (hthawed : s.settings.frozen = false)
include hthawed

theorem pinConfigure_inUse (hdir : (s.pins.get k).map.dir ≠ m.dir) (hused : s.pinInUse k = true) (level : Level) :
    pinConfigure p (pinMapBytes k m) level s = refuse s .inUse := by
  rw [pinConfigure_pin hholder hdebounce, if_neg (by simp [hthawed]), if_pos ⟨hdir, hused⟩]

theorem pinConfigure_passing (hfree : (s.pins.get k).map.dir = m.dir ∨ s.pinInUse k = false) (level : Level) :
    pinConfigure p (pinMapBytes k m) level s = ok (pinConfigured k m level s) (pinMapBytes k m) := by
  rw [pinConfigure_pin hholder hdebounce, if_neg (by simp [hthawed]), if_neg]
  rintro ⟨hdir, hused⟩
  rcases hfree with hsame | hnot
  · exact hdir hsame
  · exact Bool.false_ne_true (hnot.symm.trans hused)

end

/-! The cell of the configured pin (R76, R77). -/

section
variable {c : PinCell} {m : PinMap} (rt : Nat) (held : Bool)

theorem PinCell.configure_map : (c.configure m rt held).map = m := by
  unfold configure
  dsimp only
  repeat' split
  all_goals simp

theorem PinCell.configure_not_out (h : m.dir ≠ .output) :
    c.configure m rt held = { c with map := m, driven := none, check := none } := by
  rw [configure, if_neg h]

variable (hout : m.dir = .output)
include hout

/-- A pin that becomes OUT: its first level starts the contention check (R76, R87). -/
theorem PinCell.configure_becomes_out (h : c.map.dir ≠ .output) :
    c.configure m rt held = { c with map := m, driven := some m.safe, check := some (rt + 2000) } := by
  rw [configure, if_pos hout, if_neg h, driveSafe, drive_of_out hout]
  exact if_neg (Option.some_ne_none _).symm

theorem PinCell.configure_stays_safe (h : c.map.dir = .output) {held : Bool} (hfree : c.holder = none ∨ held = true) :
    c.configure m rt held = drivenCell rt m.safe { c with map := m } := by
  rw [configure, if_pos hout, if_pos h, if_pos hfree, driveSafe, drive_eq]

/-- A claimed OUT pin keeps its level in RUN (R77). -/
theorem PinCell.configure_stays_claimed (h : c.map.dir = .output) (hclaimed : c.holder ≠ none) :
    c.configure m rt false = { c with map := m } := by
  rw [configure, if_pos hout, if_pos h, if_neg]
  exact fun hfree => hfree.elim hclaimed Bool.false_ne_true

end

/-- Settles O37: `pinConfigure_pin` check by check, with the cell by R76 and R77 and the watch record by R104. -/
theorem pinConfigureWritesTheMap : Obligations.PinConfigureWritesTheMap := by
  intro p k m level s htakes hholder hdebounce
  refine ⟨pinMapBytes k m, rfl, fun hfrozen => ?frozen, fun hthawed hdir hused => ?inUse, fun hthawed hfree => ?passing⟩
  case frozen => exact congrArg _ (request_refused htakes (pinConfigure_frozen hholder hdebounce hfrozen level))
  case inUse =>
    exact congrArg _ (request_refused htakes (pinConfigure_inUse hholder hdebounce hthawed hdir (pinInUse_iff.2 hused) level))
  case passing =>
    have hunused : (s.pins.get k).map.dir = m.dir ∨ s.pinInUse k = false := by
      refine hfree.imp_right fun ⟨hclaim, hsubs, hlive⟩ => Bool.eq_false_of_not_eq_true fun hused => ?_
      rcases pinInUse_iff.1 hused with h | ⟨q, h⟩ | ⟨e, he, h | h⟩
      · exact h hclaim
      · exact h (hsubs q)
      · exact (hlive e he).1 h
      · exact (hlive e he).2 h
    refine ⟨_, _, congrArg _ (request_carried htakes (pinConfigure_passing hholder hdebounce hthawed hunused level)),
      PinCell.configure_map _ _, PinCell.configure_holder _ _ _ _, fun hnot => ?notOut, fun hout hbefore => ?becomesOut,
      fun hout hbefore hsafe => PinCell.configure_stays_safe _ hout hbefore hsafe,
      fun hout hbefore hclaimed hrun => ?staysClaimed, fun hin => ?watched, fun hnot => if_neg hnot⟩
    case notOut =>
      rw [PinCell.configure_not_out _ _ hnot]
      exact ⟨rfl, rfl⟩
    case becomesOut =>
      rw [PinCell.configure_becomes_out _ _ hout hbefore]
      exact ⟨rfl, rfl⟩
    case staysClaimed =>
      rw [hrun, PinCell.configure_stays_claimed _ hout hbefore hclaimed]
      exact ⟨rfl, rfl⟩
    case watched => exact if_pos hin

end Sys2Proof.Machine
end

section
/-! SUPPORT. Port resets: PORT RESET, and the fall and the rise of PRSTn (R195 to R197). -/

namespace Sys2Proof.Machine

open Sys2Proof.Safety

/-! ## The port's own state -/

theorem portResetOf_port (p : Port) (s : State) :
    (portResetOf p s).ports.get p = (s.ports.get p).reset9 s.time.rt s.load.isSome := Tab.get_upd_self _ _ _

theorem portResetOf_otherPort {p q : Port} (h : q ≠ p) (s : State) : (portResetOf p s).ports.get q = s.ports.get q :=
  Tab.get_upd_ne _ _ h.symm

/-- Step 9 of R196, and what both lines and the default period keep. -/
theorem PortState.reset9_buffer (rt : Nat) (loading : Bool) (q : PortState) :
    (q.reset9 rt loading).receiver = .idle ∧ (q.reset9 rt loading).sdo = [] ∧ (q.reset9 rt loading).missed = false ∧
      (q.reset9 rt loading).result = ⟨.none, 0x00#8, []⟩ ∧ (q.reset9 rt loading).defaultLeaseMs = q.defaultLeaseMs := by
  cases loading <;> exact ⟨rfl, rfl, rfl, rfl, rfl⟩

theorem PortState.reset9_prstnLow (rt : Nat) (loading : Bool) (q : PortState) : (q.reset9 rt loading).prstnLow = q.prstnLow := by
  cases loading <;> rfl

/-- Step 8 of R196, after the load: the lease is started from the default period. -/
theorem PortState.reset9_lease (rt : Nat) (q : PortState) :
    (q.reset9 rt false).leasePeriodMs = q.defaultLeaseMs ∧
      (q.reset9 rt false).lease = if q.defaultLeaseMs = 0 then .none else .running (rt + q.defaultLeaseMs * 1000000) := ⟨rfl, rfl⟩

/-! ## The port's share of the hub -/

/-- The nine steps of R196, block by block. -/
theorem portResetOf_atPortReset (p : Port) (s : State) : AtPortReset p s (portResetOf p s) where
  entries := rfl
  pinsHeld k hholder := by
    rw [portResetOf_pins, PinCell.releasePort_of_holder hholder]
    rfl
  pinsKept k hnot := by rw [portResetOf_pins, PinCell.releasePort_of_not_holder hnot]
  subs q k := by
    rw [portResetOf_subs, Tab.get_set]
    by_cases h : p = q
    · rw [if_pos h, if_pos h.symm, Tab.get_fill]
    · rw [if_neg h, if_neg (Ne.symm h)]
  settings := rfl
  unlockSeen := rfl
  rings q := by
    rw [portResetOf_rings, Tab.get_set]
    by_cases h : p = q
    · rw [if_pos h, if_pos h.symm]
      rfl
    · rw [if_neg h, if_neg (Ne.symm h)]
  vectors v c := by
    rw [portResetOf_vectors, Tab.get_set_self]
    exact ⟨Tab.get_fill _ _, Tab.get_fill _ _, rfl, rfl, rfl⟩
  vectorsKept q hq := by rw [portResetOf_vectors, Tab.get_set_ne _ _ hq.symm]
  buffer := by
    rw [portResetOf_port]
    exact PortState.reset9_buffer _ _ _
  lease hload := by
    rw [portResetOf_port, hload]
    exact PortState.reset9_lease _ _
  portsKept q hq := portResetOf_otherPort hq s
  rest := ⟨rfl, rfl, rfl, rfl, rfl, rfl, rfl⟩

/-- The fall of the line itself moves nothing that a port reset reads. -/
theorem atPortReset_of_pullPrstn {p : Port} {s t : State} (h : AtPortReset p (pullPrstn p s) t) : AtPortReset p s t := by
  have hdefault : ((pullPrstn p s).ports.get p).defaultLeaseMs = (s.ports.get p).defaultLeaseMs := by
    rw [pullPrstn_ports, Tab.get_upd_self]
  have hbuffer := h.buffer
  have hlease := h.lease
  rw [hdefault] at hbuffer hlease
  exact ⟨h.entries, h.pinsHeld, h.pinsKept, h.subs, h.settings, h.unlockSeen, h.rings, h.vectors, h.vectorsKept, hbuffer, hlease,
    fun q hq => (h.portsKept q hq).trans (Tab.get_upd_ne _ _ hq.symm), h.rest⟩

/-! ## The commands -/

theorem exec_portReset_taken {p : Port} {s : State} (h : s.takesFrames p = true) :
    exec (.portReset p []) s = .next (portResetOf p s) := by
  change Host.Outcome.next (if s.takesFrames p then portResetOf p s else frameEnd p s) = _
  rw [if_pos h]

theorem exec_portReset_refused {p : Port} {args : List Byte} {s : State} (h : s.takesFrames p = true) (hargs : args ≠ []) :
    exec (.portReset p args) s = .next (answer p ⟨.badArgument, 0x03#8, []⟩ s) := by
  change Host.Outcome.next (if args.length ≠ 0 then request p 0x03#8 s fun s => refuse s .badArgument
    else if s.takesFrames p then portResetOf p s else frameEnd p s) = _
  rw [if_pos (by simpa using hargs), request_refused h rfl]

theorem exec_prstnFall_high {p : Port} {s : State} (hpowered : s.powered = true) (hhigh : (s.ports.get p).prstnLow = false) :
    exec (.prstnFall p) s = .next (portResetOf p (pullPrstn p s)) := by
  change Host.Outcome.next (prstnFall p s) = _
  simp [prstnFall, hhigh, hpowered]

/-- Port `p` after the rise of its line (R195). -/
def risenPort (p : Port) (begun : Bool) (s : State) : PortState :=
  { s.ports.get p with
    prstnLow := false
    receiver := .idle
    missed := begun && s.powered && !s.resetnLow && decide (s.load = none) }

theorem exec_prstnRise_low {p : Port} {s : State} (hlow : (s.ports.get p).prstnLow = true) (begun : Bool) :
    exec (.prstnRise ⟨p, begun⟩) s = .next { s with ports := s.ports.set p (risenPort p begun s) } := by
  have hopen : (begun && s.portsOpen) = (begun && s.powered && !s.resetnLow && decide (s.load = none)) := by
    cases hload : s.load <;> simp [State.portsOpen, hload, Bool.and_assoc]
  change Host.Outcome.next (prstnRise p begun s) = _
  rw [prstnRise, if_pos hlow, hopen]
  rfl

theorem exec_prstnRise_high {p : Port} {s : State} (hhigh : (s.ports.get p).prstnLow = false) (begun : Bool) :
    exec (.prstnRise ⟨p, begun⟩) s = .next s := by
  change Host.Outcome.next (prstnRise p begun s) = _
  rw [prstnRise, hhigh]
  rfl

/-- Settles O58: `portResetOf_atPortReset` for the request and for the fall of the line, and the rise by its two levels. -/
theorem portResetClearsThePortsShare : Obligations.PortResetClearsThePortsShare := by
  intro p s
  refine ⟨fun htakes => ?request, fun htakes args hargs => exec_portReset_refused htakes hargs, fun hpowered hhigh => ?fall,
    fun begun => ⟨fun hlow => ⟨_, exec_prstnRise_low hlow begun, rfl⟩, fun hhigh => exec_prstnRise_high hhigh begun⟩⟩
  case request =>
    refine ⟨_, exec_portReset_taken htakes, portResetOf_atPortReset p s, ?_⟩
    rw [portResetOf_port, PortState.reset9_prstnLow]
  case fall =>
    refine ⟨_, exec_prstnFall_high hpowered hhigh, atPortReset_of_pullPrstn (portResetOf_atPortReset p _), ?_⟩
    rw [portResetOf_port, PortState.reset9_prstnLow, pullPrstn_ports, Tab.get_upd_self]

end Sys2Proof.Machine
end

section
/-! SUPPORT. What an occurrence keeps of the fault log's policy, of FAULTn and of the hold notices (R157 to R159), and the settings load
(R90, R167, R176, R177). -/

namespace Sys2Proof.Machine

open Sys2Proof.Safety

/-! ## The policy of the fault log -/

/-- The masks, the severities and safe-on-major are the same (R153). -/
structure PolicyKept (s t : State) : Prop where
  masked : ∀ k, (t.faults.cells.get k).masked = (s.faults.cells.get k).masked
  severity : ∀ k, (t.faults.cells.get k).severity = (s.faults.cells.get k).severity
  safeOnMajor : t.faults.safeOnMajor = s.faults.safeOnMajor

theorem PolicyKept.of_faults {s t : State} (h : t.faults = s.faults) : PolicyKept s t := by
  constructor <;> simp [h]

theorem PolicyKept.trans {s t u : State} (h : PolicyKept s t) (k : PolicyKept t u) : PolicyKept s u :=
  ⟨fun j => (k.masked j).trans (h.masked j), fun j => (k.severity j).trans (h.severity j), k.safeOnMajor.trans h.safeOnMajor⟩

theorem bumpCount_policyKept (k : FaultKind) (s : State) : PolicyKept s (bumpCount k s) := by
  refine ⟨fun j => ?_, fun j => ?_, rfl⟩ <;>
  · simp only [bumpCount, Tab.get_upd]
    split
    · next h => rw [h]
    · rfl

/-- A capture and a line set anew touch no cell. -/
theorem occurrenceLogged_cells (k : FaultKind) (port : Option Port) (ctx : FaultContext) (s : State) :
    (occurrenceLogged k port ctx s).faults.cells = (bumpCount k s).faults.cells ∧
      (occurrenceLogged k port ctx s).faults.safeOnMajor = s.faults.safeOnMajor := by
  unfold occurrenceLogged captureOccurrence
  split <;> exact ⟨rfl, rfl⟩

theorem policyKept_occurrenceKeeps : OccurrenceKeeps PolicyKept where
  same h := .of_faults h.faults
  trans := .trans
  bump := bumpCount_policyKept
  logged k port ctx s := by
    obtain ⟨hcells, hsafe⟩ := occurrenceLogged_cells k port ctx s
    obtain ⟨hmasked, hseverity, -⟩ := bumpCount_policyKept k s
    exact ⟨by rw [hcells]; exact hmasked, by rw [hcells]; exact hseverity, hsafe⟩
  notify k sev s := .of_faults (notifyOccurrence_faults k sev s)

/-! ## FAULTn -/

/-- An unmasked kind of major severity with this number has been counted (R159). -/
def CountedMajor (k : Fin 11) (s : State) : Prop :=
  (s.faults.cells.get k).masked = false ∧ (s.faults.cells.get k).severity = .major ∧ (s.faults.cells.get k).count ≠ 0

theorem mem_allKinds (k : Fin 11) : k ∈ allKinds := by
  revert k
  decide

theorem CountedMajor.majorStands {k : Fin 11} {s : State} (h : CountedMajor k s) : s.faults.majorStands = true := by
  obtain ⟨hmasked, hseverity, hcount⟩ := h
  exact List.any_eq_true.2 ⟨k, mem_allKinds k, by simp [hmasked, hseverity, hcount]⟩

/-- A kind that holds FAULTn low goes on holding it. -/
def FaultHeld (k : Fin 11) (s t : State) : Prop :=
  CountedMajor k s → s.faults.faultnLow = true → CountedMajor k t ∧ t.faults.faultnLow = true

theorem bumpCount_countedMajor {k : Fin 11} {s : State} (h : CountedMajor k s) (j : FaultKind) : CountedMajor k (bumpCount j s) := by
  obtain ⟨hmasked, hseverity, hcount⟩ := h
  have hkept := bumpCount_policyKept j s
  refine ⟨(hkept.masked k).trans hmasked, (hkept.severity k).trans hseverity, ?_⟩
  simp only [bumpCount, Tab.get_upd]
  split
  · exact bumped_ne_zero _
  · exact hcount

theorem occurrenceLogged_faultnLow {k : Fin 11} {j : FaultKind} {s : State} (h : CountedMajor k (bumpCount j s)) (port : Option Port)
    (ctx : FaultContext) :
    CountedMajor k (occurrenceLogged j port ctx s) ∧ (occurrenceLogged j port ctx s).faults.faultnLow = true := by
  have hlogged : CountedMajor k (occurrenceLogged j port ctx s) := by
    unfold CountedMajor
    rw [(occurrenceLogged_cells j port ctx s).1]
    exact h
  exact ⟨hlogged, hlogged.majorStands⟩

theorem FaultHeld.of_faults {k : Fin 11} {s t : State} (h : t.faults = s.faults) : FaultHeld k s t := fun hcounted hlow => by
  unfold CountedMajor
  rw [h]
  exact ⟨hcounted, hlow⟩

theorem faultHeld_occurrenceKeeps (k : Fin 11) : OccurrenceKeeps (FaultHeld k) where
  same h := .of_faults h.faults
  trans h₁ h₂ hcounted hlow := (h₁ hcounted hlow).elim h₂
  bump j _ hcounted hlow := ⟨bumpCount_countedMajor hcounted j, hlow⟩
  logged j port ctx _ hcounted _ := occurrenceLogged_faultnLow (bumpCount_countedMajor hcounted j) port ctx
  notify j sev s := .of_faults (notifyOccurrence_faults j sev s)

/-- An unmasked occurrence of a kind of major severity pulls FAULTn low (R159). -/
theorem occur_faultnLow {k : FaultKind} {s : State} (hmasked : (s.faults.cells.get k.idx).masked = false)
    (hmajor : (s.faults.cells.get k.idx).severity = .major) (port : Option Port) (ctx : FaultContext) :
    (occur k port ctx s).faults.faultnLow = true := by
  have hbumped : CountedMajor k.idx (bumpCount k s) := by
    have hkept := bumpCount_policyKept k s
    refine ⟨(hkept.masked _).trans hmasked, (hkept.severity _).trans hmajor, ?_⟩
    simp only [bumpCount, Tab.get_upd_self]
    exact bumped_ne_zero _
  obtain ⟨hcounted, hlow⟩ := occurrenceLogged_faultnLow hbumped port ctx
  obtain ⟨hcounted, hlow⟩ := FaultHeld.of_faults (occurOne_faults_of_unmasked hmasked port ctx) hcounted hlow
  exact ((faultHeld_occurrenceKeeps k.idx).reportOverflows _ _ hcounted hlow).2

/-! ## Hold notices -/

theorem raiseClassAll_sched (c : RaiseClass) (ps : List Port) (s : State) : (raiseClassAll c ps s).sched = s.sched := by
  induction ps generalizing s with
  | nil => rfl
  | cons p ps ih => rw [raiseClassAll, ih, raiseClass_sched]

theorem ringPut_sched (p : Port) (r : Record) (s : State) : (ringPut p r s).1.sched = s.sched := by
  unfold ringPut
  dsimp only
  split <;> split <;> rfl

theorem ringPutAll_sched (r : Record) (ps : List Port) (s : State) : (ringPutAll r ps s).1.sched = s.sched := by
  induction ps generalizing s with
  | nil => rfl
  | cons p ps ih => exact (ih _).trans (ringPut_sched p r s)

theorem notifyOccurrence_sched (k : FaultKind) (sev : Severity) (s : State) : (notifyOccurrence k sev s).1.sched = s.sched :=
  (raiseClassAll_sched _ _ _).trans (ringPutAll_sched _ _ s)

theorem occurrenceLogged_sched (k : FaultKind) (port : Option Port) (ctx : FaultContext) (s : State) :
    (occurrenceLogged k port ctx s).sched = s.sched := by
  unfold occurrenceLogged captureOccurrence
  split <;> rfl

/-- R157: an unmasked occurrence of major severity hands one hold notice under safe-on-major; no other occurrence hands one. -/
theorem occurOne_sched (k : FaultKind) (port : Option Port) (ctx : FaultContext) (s : State) :
    (occurOne k port ctx s).1.sched = { s.sched with holdNotices := s.sched.holdNotices +
      if (s.faults.cells.get k.idx).masked = false ∧ (s.faults.cells.get k.idx).severity = .major ∧
        s.faults.safeOnMajor = true then 1 else 0 } := by
  cases hmasked : (s.faults.cells.get k.idx).masked with
  | true =>
    rw [occurOne_of_masked hmasked]
    simp [bumpCount]
  | false =>
    have hlogged := occurrenceLogged_sched k port ctx s
    have hnotified := notifyOccurrence_sched k (s.faults.cells.get k.idx).severity (occurrenceLogged k port ctx s)
    unfold occurrenceLogged at hlogged hnotified
    unfold occurOne
    dsimp only
    generalize setFaultn (captureOccurrence k port ctx (bumpCount k s)) = logged at hlogged hnotified ⊢
    generalize notifyOccurrence k _ logged = notified at hnotified ⊢
    have hreported : (if (s.faults.cells.get k.idx).count = 0 then notified else (logged, [])).1.sched = s.sched := by
      split
      · exact hnotified.trans hlogged
      · exact hlogged
    generalize (if (s.faults.cells.get k.idx).count = 0 then notified else (logged, [])) = reported at hreported ⊢
    by_cases hhand : (s.faults.cells.get k.idx).severity = .major ∧ s.faults.safeOnMajor = true
    · simp [hmasked, hhand, hreported]
    · simp [hmasked, hhand, hreported]

theorem freeOrder_sched (l : List Port) (s : State) : (freeOrder l s).2.sched = s.sched := by
  unfold freeOrder
  split <;> rfl

section
variable {s : State} (hminor : (s.faults.cells.get FaultKind.ringOverflow.idx).severity = .minor)
include hminor

/-- Occurrences of RING_OVERFLOW at minor severity hand no hold notice. -/
theorem occurOverflows_sched (ps : List Port) : (occurOverflows ps s).1.sched = s.sched := by
  induction ps generalizing s with
  | nil => rfl
  | cons p ps ih =>
    have hkept := policyKept_occurrenceKeeps.occurOne .ringOverflow (some p) .none s
    refine (ih ((hkept.severity _).trans hminor)).trans ?_
    rw [occurOne_sched]
    simp [hminor]

theorem reportOverflows_sched (ps : List Port) : (reportOverflows ps s).sched = s.sched := by
  have hkept := policyKept_occurrenceKeeps.occurOverflows (freeOrder ps s).1 (freeOrder ps s).2
  have hminor₁ : ((freeOrder ps s).2.faults.cells.get FaultKind.ringOverflow.idx).severity = .minor := by
    rw [freeOrder_faults]
    exact hminor
  have hminor₂ := (hkept.severity _).trans hminor₁
  unfold reportOverflows
  dsimp only
  rw [occurOverflows_sched (by rw [freeOrder_faults]; exact hminor₂), freeOrder_sched, occurOverflows_sched hminor₁, freeOrder_sched]

/-- With RING_OVERFLOW at minor severity an occurrence hands the hold notice of its own kind and no other (R157). -/
theorem occur_sched (k : FaultKind) (port : Option Port) (ctx : FaultContext) :
    (occur k port ctx s).sched = { s.sched with holdNotices := s.sched.holdNotices +
      if (s.faults.cells.get k.idx).masked = false ∧ (s.faults.cells.get k.idx).severity = .major ∧
        s.faults.safeOnMajor = true then 1 else 0 } := by
  have hkept := policyKept_occurrenceKeeps.occurOne k port ctx s
  rw [← occurOne_sched k port ctx s]
  exact reportOverflows_sched ((hkept.severity _).trans hminor) _

end

/-! ## The loaded values in place -/

theorem PinCell.load_map (rt : Nat) (m : PinMap) (c : PinCell) : (c.load rt m).map = m := by
  unfold load
  split
  · rw [driveSafe_map]
  · rfl

theorem PinCell.load_holder (rt : Nat) (m : PinMap) (c : PinCell) : (c.load rt m).holder = c.holder := by
  unfold load
  split
  · rw [driveSafe_holder]
  · rfl

/-- The level and the contention check of a pin at a load (R90). -/
theorem PinCell.load_of_out {m : PinMap} (h : m.dir = .output) (rt : Nat) (c : PinCell) :
    (c.load rt m).driven = some m.safe ∧
      (c.load rt m).check = if c.map.dir = .output ∧ c.driven = some m.safe then c.check else some (rt + 2000) := by
  rw [load, if_pos h, driveSafe, drive_of_out h]
  by_cases hbefore : c.map.dir = .output <;> by_cases hlevel : c.driven = some m.safe <;> simp [hbefore, hlevel]

theorem PinCell.load_of_not_out {m : PinMap} (h : m.dir ≠ .output) (rt : Nat) (c : PinCell) :
    (c.load rt m).driven = none ∧ (c.load rt m).check = none := by
  rw [load, if_neg h]
  exact ⟨rfl, rfl⟩

/-- The discipline unit at a load (R17, R35). -/
theorem Discipline.load_values (rt : Nat) (c : RefConfig) (q : Profile) (d : Discipline) :
    (d.load rt c q).cfg = c ∧ (d.load rt c q).profile = q ∧ (d.load rt c q).f = d.f ∧
      (c.enabled = true → (d.load rt c q).state = .search ∧ (d.load rt c q).refPoint = rt ∧ (d.load rt c q).firstEdge = true) ∧
      (c.enabled = false → (d.load rt c q).state = d.state) := by
  cases henabled : c.enabled <;> simp [load, enable, henabled]

section
variable (kind : LoadKind) (w : Settings) (valid : Bool) (levels : BitVec 24) (begun : BitVec 4) (s : State)

theorem putSettings_pin (k : Pin) :
    (putSettings kind w valid levels begun s).pins.get k = (s.pins.get k).load s.time.rt (w.pins.get k) := Tab.get_build _ _

theorem putSettings_watch (k : Pin) : (putSettings kind w valid levels begun s).watch.get k =
    if (w.pins.get k).dir = .input then some (Watch.fresh (levels.getLsbD k.val)) else none := Tab.get_build _ _

theorem putSettings_port (p : Port) : (putSettings kind w valid levels begun s).ports.get p =
    (s.ports.get p).load s.time.rt (w.leases.get p) (begun.getLsbD p.val) := Tab.get_build _ _

/-- The cells of the fault log at a load: the counts stay, and the policy is loaded after power-on only (R167). -/
theorem putSettings_cell (k : Fin 11) : (putSettings kind w valid levels begun s).faults.cells.get k =
    match kind with
    | .powerOn => ⟨(s.faults.cells.get k).count, w.masks.get k, w.severities.get k⟩
    | .hubReset _ => s.faults.cells.get k := by
  cases kind
  · exact Tab.get_build _ _
  · rfl

theorem putSettings_count (k : Fin 11) :
    ((putSettings kind w valid levels begun s).faults.cells.get k).count = (s.faults.cells.get k).count := by
  rw [putSettings_cell]
  cases kind <;> rfl

/-- The values of R176 in place, whether the image gave them or the built-in defaults. -/
theorem putSettings_atLoad : AtLoad kind w levels begun s (putSettings kind w valid levels begun s) where
  taken := rfl
  pinMap k := by
    rw [putSettings_pin]
    exact ⟨PinCell.load_map _ _ _, PinCell.load_holder _ _ _⟩
  driven k := by
    rw [putSettings_pin]
    split
    · next hout => exact (PinCell.load_of_out hout _ _).1
    · next hnot => exact (PinCell.load_of_not_out hnot _ _).1
  checks k := by
    rw [putSettings_pin]
    split
    · next hnot => exact (PinCell.load_of_not_out hnot _ _).2
    · next hout => exact (PinCell.load_of_out (of_not_not hout) _ _).2
  watch := putSettings_watch kind w valid levels begun s
  limits := ⟨rfl, rfl, rfl, rfl, rfl⟩
  leases p := by
    rw [putSettings_port]
    exact ⟨rfl, rfl, rfl, rfl⟩
  receivers p := by
    rw [putSettings_port]
    exact ⟨rfl, rfl, rfl⟩
  reference := Discipline.load_values _ _ _ _
  schedule := ⟨rfl, rfl, rfl, rfl⟩
  policy k := by
    rw [putSettings_cell]
    cases kind <;> rfl
  safeOnMajor := by cases kind <;> rfl
  rest := ⟨rfl, rfl, rfl, rfl, rfl⟩

theorem putSettings_capture : (putSettings kind w valid levels begun s).faults.capture = s.faults.capture := by
  cases kind <;> rfl

end

/-- The built-in defaults are those of R177. -/
theorem builtin_isBuiltin : IsBuiltin .builtin where
  pins k := Tab.get_fill _ k
  quotas p := Tab.get_fill _ p
  leases p := Tab.get_fill _ p
  ref := rfl
  profile := rfl
  lateThreshold := rfl
  masks k := Tab.get_fill _ k
  severities k := Tab.get_build _ k
  flags := ⟨rfl, rfl⟩

/-- An occurrence after the load leaves what the load put in place. -/
theorem AtLoad_of_logOnly {kind : LoadKind} {w : Settings} {levels : BitVec 24} {begun : BitVec 4} {s u t : State}
    (h : AtLoad kind w levels begun s u) (hlog : LogOnly u t) (hkept : PolicyKept u t) : AtLoad kind w levels begun s t where
  taken := hlog.load.trans h.taken
  pinMap := by rw [hlog.pins]; exact h.pinMap
  driven := by rw [hlog.pins]; exact h.driven
  checks := by rw [hlog.pins]; exact h.checks
  watch := by rw [hlog.watch]; exact h.watch
  limits := by rw [hlog.settings]; exact h.limits
  leases := by rw [hlog.ports]; exact h.leases
  receivers := by rw [hlog.ports]; exact h.receivers
  reference := by rw [hlog.disc]; exact h.reference
  schedule := by rw [hlog.lateThreshold, hlog.armed, hlog.waiting, hlog.held]; exact h.schedule
  policy k := by rw [hkept.masked, hkept.severity]; exact h.policy k
  safeOnMajor := by cases kind <;> exact hkept.safeOnMajor.trans h.safeOnMajor
  rest := by rw [hlog.powered, hlog.resetnLow, hlog.time, hlog.subs, hlog.pending]; exact h.rest

/-! ## SETTINGS_LOAD -/

section
variable {s : State} {kind : LoadKind} (hload : s.load = some kind) (hpowered : s.powered = true) (hhigh : s.resetnLow = false)
include hload hpowered hhigh

theorem exec_settingsLoad_valid {w : Settings} (himage : s.settings.image.settings = some w) (levels : BitVec 24)
    (begun : BitVec 4) : exec (.settingsLoad ⟨levels, begun⟩) s = .next (putSettings kind w true levels begun s) := by
  change Host.Outcome.next (settingsLoad levels begun s) = _
  simp [settingsLoad, hload, hpowered, hhigh, himage]

theorem exec_settingsLoad_invalid (himage : s.settings.image.settings = none) (levels : BitVec 24) (begun : BitVec 4) :
    exec (.settingsLoad ⟨levels, begun⟩) s =
      .next (occur .storeInvalid none .none (putSettings kind .builtin false levels begun s)) := by
  change Host.Outcome.next (settingsLoad levels begun s) = _
  simp [settingsLoad, hload, hpowered, hhigh, himage]

end

/-- The cell of a kind after the built-in defaults of a load after power-on (R167, R177). -/
theorem builtin_cell (k : Fin 11) (levels : BitVec 24) (begun : BitVec 4) (s : State) :
    ((putSettings .powerOn .builtin false levels begun s).faults.cells.get k) =
      ⟨(s.faults.cells.get k).count, false, defaultSeverity k⟩ := by
  rw [putSettings_cell]
  simp [Settings.builtin]

/-- STORE_INVALID under the built-in defaults, in force after power-on (R157, R159, R167, R177). -/
theorem storeInvalid_afterPowerOn (levels : BitVec 24) (begun : BitVec 4) (s : State) :
    let t := occur .storeInvalid none .none (putSettings .powerOn .builtin false levels begun s)
    t.faults.faultnLow = true ∧ t.sched.holdNotices = s.sched.holdNotices + 1 ∧
      (s.faults.capture = none → t.faults.capture = some ⟨.storeInvalid, s.time.ht, s.time.epoch, none, .none⟩) := by
  have hcell := builtin_cell FaultKind.storeInvalid.idx levels begun s
  have hmasked := congrArg FaultCell.masked hcell
  have hmajor := congrArg FaultCell.severity hcell
  have hminor := congrArg FaultCell.severity (builtin_cell FaultKind.ringOverflow.idx levels begun s)
  refine ⟨occur_faultnLow hmasked hmajor _ _, ?_, fun hnone => occur_captures hmasked ?_ _ _⟩
  · rw [occur_sched hminor, hmasked, hmajor]
    rfl
  · exact hnone

/-- Settles O5: `putSettings_atLoad` for the values, and the occurrence of STORE_INVALID under their policy. -/
theorem settingsLoadPutsTheSettingsInPlace : Obligations.SettingsLoadPutsTheSettingsInPlace := by
  intro s kind levels begun hload hpowered hhigh
  refine ⟨fun w himage => ?valid, fun himage => ?invalid⟩
  case valid =>
    exact ⟨_, exec_settingsLoad_valid hload hpowered hhigh himage levels begun, putSettings_atLoad _ _ _ _ _ s, rfl, rfl, rfl,
      putSettings_count _ _ _ _ _ s⟩
  case invalid =>
    have hput := putSettings_atLoad kind .builtin false levels begun s
    have hlog := occur_logOnly .storeInvalid none .none (putSettings kind .builtin false levels begun s)
    have hkept := policyKept_occurrenceKeeps.occur .storeInvalid none .none (putSettings kind .builtin false levels begun s)
    refine ⟨.builtin, putSettings kind .builtin false levels begun s, _, builtin_isBuiltin, hput, rfl, rfl, rfl, rfl,
      putSettings_capture _ _ _ _ _ s, putSettings_count _ _ _ _ _ s,
      exec_settingsLoad_invalid hload hpowered hhigh himage levels begun, rfl, hlog, AtLoad_of_logOnly hput hlog hkept, ?store,
      ?count, ?powerOn⟩
    case store =>
      rw [hlog.settings]
      rfl
    case count =>
      rw [occur_count (by decide), if_pos rfl, countOf, putSettings_count]
      rfl
    case powerOn =>
      rintro rfl
      exact storeInvalid_afterPowerOn levels begun s

end Sys2Proof.Machine
end

section
/-! SUPPORT. What every step keeps of the watch records: one for each IN pin from the load on and no other, in IDLE with the sensed
level confirmed; and the in pins of the live entries stay IN (R92, R104, R106, R120). -/

namespace Sys2Proof.Machine

open Sys2Proof.Safety

/-! ## The records and the pins that they watch -/

/-- The part of `Safety.WatchTied` that speaks of the watch records and of the entries that wait for an edge. -/
structure RecordsTied (s : State) : Prop where
  present : ∀ k, s.watch.get k ≠ none ↔ s.load = none ∧ (s.pins.get k).map.dir = .input
  idle : ∀ k w, s.watch.get k = some w → w.window = none → w.sensed = w.confirmed
  inPins : ∀ e ∈ s.sched.live, ∀ k, e.inPin = some k → (s.pins.get k).map.dir = .input

theorem watchTied_iff {s : State} : WatchTied s ↔ RecordsTied s ∧ EmptyBeforeLoad s :=
  ⟨fun ⟨hpresent, hidle, hin, hempty⟩ => ⟨⟨hpresent, hidle, hin⟩, hempty⟩,
    fun ⟨⟨hpresent, hidle, hin⟩, hempty⟩ => ⟨hpresent, hidle, hin, hempty⟩⟩

/-- The awaited load, the watch records and the pin map are the same. -/
structure WatchKept (s t : State) : Prop where
  load : t.load = s.load
  watch : t.watch = s.watch
  map : ∀ k, (t.pins.get k).map = (s.pins.get k).map

section
variable {s t u : State}

theorem WatchKept.of_pins (hload : t.load = s.load) (hwatch : t.watch = s.watch) (hpins : t.pins = s.pins) : WatchKept s t :=
  ⟨hload, hwatch, fun k => by rw [hpins]⟩

theorem WatchKept.refl (s : State) : WatchKept s s := .of_pins rfl rfl rfl

theorem WatchKept.of_logOnly (h : LogOnly s t) : WatchKept s t := .of_pins h.load h.watch h.pins

theorem WatchKept.trans (h : WatchKept s t) (k : WatchKept t u) : WatchKept s u :=
  ⟨k.load.trans h.load, k.watch.trans h.watch, fun j => (k.map j).trans (h.map j)⟩

/-- What comes before and leaves the records and the pins alone does not matter. -/
theorem WatchKept.after (k : WatchKept t u) (h : WatchKept s t) : WatchKept s u := h.trans k

/-- A change of one cell that leaves its map entry. -/
theorem WatchKept.of_upd {k : Pin} {f : PinCell → PinCell} (hload : t.load = s.load) (hwatch : t.watch = s.watch)
    (hpins : t.pins = s.pins.upd k f) (hmap : ∀ c, (f c).map = c.map) : WatchKept s t := by
  refine ⟨hload, hwatch, fun j => ?_⟩
  rw [hpins, Tab.get_upd]
  split
  next hkj => rw [hmap, hkj]
  next => rfl

/-- A change of every cell that leaves the map. -/
theorem WatchKept.of_map {f : PinCell → PinCell} (hload : t.load = s.load) (hwatch : t.watch = s.watch)
    (hpins : t.pins = s.pins.map f) (hmap : ∀ c, (f c).map = c.map) : WatchKept s t :=
  ⟨hload, hwatch, fun j => by rw [hpins, Tab.get_map, hmap]⟩

end

section
variable {s t : State} (hs : RecordsTied s)
include hs

/-- No entry joins the schedule, and the records and the pin map stay. -/
theorem RecordsTied.of_kept (h : WatchKept s t) (hlast : EntriesLast s t) : RecordsTied t where
  present k := by rw [h.watch, h.load, h.map]; exact hs.present k
  idle := by rw [h.watch]; exact hs.idle
  inPins e he k hin := by
    obtain ⟨e', he', hlasting⟩ := hlast.exists_live he
    rw [h.map]
    exact hs.inPins e' he' k (by rw [← e'.lasting_inPin, hlasting, e.lasting_inPin, hin])

theorem RecordsTied.of_logOnly (h : LogOnly s t) : RecordsTied t := hs.of_kept (.of_logOnly h) (.of_logOnly h)

theorem RecordsTied.of_same (hload : t.load = s.load) (hwatch : t.watch = s.watch) (hpins : t.pins = s.pins)
    (hsched : t.sched = s.sched) : RecordsTied t :=
  hs.of_kept (.of_pins hload hwatch hpins) (.of_eq (by rw [hsched]) (by rw [hsched]))

/-- An entry that joins the schedule with its in pin IN. -/
theorem RecordsTied.join {e : Entry} (h : WatchKept s t) (hlive : ∀ x ∈ t.sched.live, x = e ∨ x ∈ s.sched.live)
    (he : ∀ k, e.inPin = some k → (s.pins.get k).map.dir = .input) : RecordsTied t where
  present k := by rw [h.watch, h.load, h.map]; exact hs.present k
  idle := by rw [h.watch]; exact hs.idle
  inPins x hx k hin := by
    rw [h.map]
    rcases hlive x hx with rfl | hmem
    · exact he k hin
    · exact hs.inPins x hmem k hin

/-- A record in the place of a pin's record, with the sensed level confirmed in IDLE (R92, R95). -/
theorem RecordsTied.setWatch {k : Pin} {w : Watch} (hrecord : s.watch.get k ≠ none)
    (hidle : w.window = none → w.sensed = w.confirmed) : RecordsTied (setWatch k w s) where
  present j := by
    rw [setWatch_watch, Tab.get_set]
    split
    next hkj =>
      subst hkj
      exact ⟨fun _ => (hs.present k).1 hrecord, fun _ => Option.some_ne_none w⟩
    next => exact hs.present j
  idle j w' hw' := by
    rw [setWatch_watch, Tab.get_set] at hw'
    split at hw'
    next =>
      cases hw'
      exact hidle
    next => exact hs.idle j w' hw'
  inPins := hs.inPins

/-- A step mark opens and ends no window (R98). -/
theorem RecordsTied.markWindows : RecordsTied (markWindows s) where
  present k := by
    have hmarked : (Machine.markWindows s).watch.get k = none ↔ s.watch.get k = none := by simp [Machine.markWindows]
    exact (not_congr hmarked).trans (hs.present k)
  idle k w hw hwindow := by
    simp only [Machine.markWindows, Tab.get_map, Option.map_eq_some_iff] at hw
    obtain ⟨w', hw', rfl⟩ := hw
    exact hs.idle k w' hw' (by simpa using hwindow)
  inPins := hs.inPins

end

/-- Before the load, with an empty schedule, there is no record (R106). -/
theorem RecordsTied.of_empty {t : State} (hload : t.load ≠ none) (hwatch : ∀ k, t.watch.get k = none)
    (hlive : t.sched.live = []) : RecordsTied t where
  present k := by simp [hwatch, hload]
  idle k w hw := by rw [hwatch] at hw; cases hw
  inPins e he := by rw [hlive] at he; cases he

/-! ## Expiries -/

theorem levelDrive_watchKept (k : Pin) (level : Level) (s : State) : WatchKept s (levelDrive k level s) :=
  .of_upd rfl rfl rfl (PinCell.drive_map _ _)

theorem expiryDrive_watchKept (a : Armed) (s : State) : WatchKept s (expiryDrive a s) := by
  unfold expiryDrive
  split
  · exact levelDrive_watchKept _ _ s
  · exact levelDrive_watchKept _ _ s
  · exact levelDrive_watchKept _ _ s
  · exact .refl s

theorem expireOne_watchKept (a : Armed) (n : Nat) (s : State) : WatchKept s (expireOne a n s) where
  load := (expireOne_fireOnly a n s).load
  watch := (expireOne_fireOnly a n s).watch
  map k := by rw [expireOne_pins]; exact (expiryDrive_watchKept a s).map k

theorem takeDue_watchKept (late : Bool) (s : State) : WatchKept s (takeDue late s).1 := by
  unfold takeDue
  generalize 2 * s.sched.armed.length = n
  induction n generalizing s with
  | zero => exact .refl s
  | succ n ih =>
    unfold expireDue
    split
    · exact .refl s
    · split
      · refine WatchKept.trans ?_ (ih _)
        exact (expireOne_watchKept _ _ _).after (.of_pins rfl rfl rfl)
      · exact .refl s

theorem takeDue_recordsTied (late : Bool) {s : State} (hs : RecordsTied s) : RecordsTied (takeDue late s).1 :=
  hs.of_kept (takeDue_watchKept late s) (takeDue_entriesLast late s)

/-! ## Edges of pins, and forward steps -/

theorem handOn_watchKept (pin : Pin) (ed : Edge) (ht : Nat) (epoch : BitVec 16) (locked late : Bool) (s : State) :
    WatchKept s (handOn pin ed ht epoch locked late s) := by
  have hposted := postAll_logOnly ⟨.capture pin ed, 0, late, locked, ht, epoch⟩ (subscribers pin ed s) s
  unfold handOn edgeArrival
  generalize postAll _ _ s = posted at hposted ⊢
  have harmed := armQueues_fireOnly pin ed ht allPorts posted
  exact ((WatchKept.of_logOnly hposted).trans
    (.of_pins harmed.load harmed.watch (armQueues_samePins pin ed ht allPorts posted).pins)).trans (takeDue_watchKept true _)

theorem handOn_recordsTied (pin : Pin) (ed : Edge) (ht : Nat) (epoch : BitVec 16) (locked late : Bool) {s : State}
    (hs : RecordsTied s) : RecordsTied (handOn pin ed ht epoch locked late s) :=
  hs.of_kept (handOn_watchKept _ _ _ _ _ _ s) (handOn_entriesLast _ _ _ _ _ _ s)

theorem transition_recordsTied (pin : Pin) (level : Level) {s : State} (hs : RecordsTied s) :
    RecordsTied (transition pin level s) := by
  unfold transition
  split
  · exact hs
  · next w hw =>
    have hrecord : s.watch.get pin ≠ none := by rw [hw]; exact Option.some_ne_none w
    repeat' split
    · next d hwindow => exact hs.setWatch hrecord fun hnone => absurd (hwindow.symm.trans hnone) (Option.some_ne_none d)
    · exact handOn_recordsTied _ _ _ _ _ _ (hs.setWatch hrecord fun _ => rfl)
    · exact hs.setWatch hrecord fun hnone => absurd hnone (Option.some_ne_none _)
    · exact hs

/-- A window that ends belongs to a record (R95). -/
theorem watch_of_windowDue {pin : Pin} {s : State} {w : Watch} {d : Window} (h : s.windowDue pin = some (w, d)) :
    s.watch.get pin = some w := by
  unfold State.windowDue at h
  repeat' split at h
  · cases h
  · cases h
  · cases h
    assumption
  · cases h

theorem debounceWindowEnd_recordsTied (pin : Pin) (level : Level) {s : State} (hs : RecordsTied s) :
    RecordsTied (debounceWindowEnd pin level s) := by
  unfold debounceWindowEnd
  split
  · exact hs
  · next w d hdue =>
    have hended : RecordsTied (setWatch pin ⟨none, level, level⟩ s) :=
      hs.setWatch (by rw [watch_of_windowDue hdue]; exact Option.some_ne_none w) fun _ => rfl
    dsimp only
    split
    · exact hended
    · exact handOn_recordsTied _ _ _ _ _ _ hended

theorem StepOrders.recordsTied {amount : Nat} {m u : State} (h : StepOrders amount m u) (hm : RecordsTied m) : RecordsTied u := by
  rcases h with rfl | rfl
  · exact (takeDue_recordsTied true hm).of_logOnly (occur_logOnly _ _ _ _)
  · exact takeDue_recordsTied true (hm.of_logOnly (occur_logOnly _ _ _ _))

theorem forwardStep_recordsTied (d : Nat) {s : State} (hs : RecordsTied s) : RecordsTied (forwardStep d s) := by
  obtain ⟨draws, horders⟩ := stepNotices_orders ((s.time.step d).ht - s.time.ht) { s with time := s.time.step d }
  have hstepped : RecordsTied { s with time := s.time.step d } := hs.of_same rfl rfl rfl rfl
  exact horders.recordsTied (hstepped.markWindows.of_same rfl rfl rfl rfl)

theorem timeSet_recordsTied (p : Port) (args : List Byte) {s : State} (hs : RecordsTied s) :
    RecordsTied (timeSet p args s).state := by
  unfold timeSet
  dsimp only
  repeat' split
  · exact hs
  · exact hs
  · exact hs
  · exact hs
  · exact hs
  · exact hs
  · exact forwardStep_recordsTied _ hs

/-! ## Edges of the reference -/

theorem enterState_watchKept (new : DiscState) (s : State) : WatchKept s (enterState new s) := by
  unfold enterState
  dsimp only
  split
  · exact .of_pins rfl rfl rfl
  · exact (WatchKept.of_logOnly (reportChange_logOnly _ _ _)).after (.of_pins rfl rfl rfl)

/-- A move to a state after a change of the discipline unit alone. -/
theorem enterState_watchKept_after (new : DiscState) (d : Discipline) (s : State) :
    WatchKept s (enterState new { s with disc := d }) := (enterState_watchKept new _).after (.of_pins rfl rfl rfl)

theorem intoLongWindow_watchKept (e : Int) (s : State) : WatchKept s (intoLongWindow e s) := by
  unfold intoLongWindow
  dsimp only
  repeat' split
  · exact .of_pins rfl rfl rfl
  · exact enterState_watchKept_after _ _ s
  · exact .of_pins rfl rfl rfl

theorem unlock_watchKept (e : Int) (s : State) : WatchKept s (unlock e s) := by
  unfold unlock
  dsimp only
  repeat' split
  · exact (WatchKept.of_logOnly (occur_logOnly _ _ _ _)).after (.of_pins rfl rfl rfl)
  · exact (WatchKept.of_logOnly ((occur_logOnly _ _ _ _).trans (reportChange_logOnly _ _ _))).after (.of_pins rfl rfl rfl)
  · exact (WatchKept.of_logOnly ((reportChange_logOnly _ _ _).trans (occur_logOnly _ _ _ _))).after (.of_pins rfl rfl rfl)

/-- The handling of an edge outside ACQUIRE steps no time, so no window is marked (R22, R23, R26, R27). -/
theorem handleEdge_watchKept {s : State} (h : s.disc.state ≠ .acquire) : WatchKept s (handleEdge s) := by
  unfold handleEdge
  split
  · exact .refl s
  · unfold edgeInSearch
    split
    · exact .of_pins rfl rfl rfl
    · exact enterState_watchKept_after _ _ s
  · next hstate => exact absurd hstate h
  · unfold edgeInTrack
    split
    · exact enterState_watchKept_after _ _ s
    · exact intoLongWindow_watchKept _ s
  · unfold edgeInLocked
    split
    · exact unlock_watchKept _ s
    · exact intoLongWindow_watchKept _ s
  · unfold edgeInHoldover
    split
    · exact .of_pins rfl rfl rfl
    · exact enterState_watchKept_after _ _ s

theorem edgeInAcquire_recordsTied (e : Int) {s : State} (hs : RecordsTied s) : RecordsTied (edgeInAcquire e s) := by
  unfold edgeInAcquire
  dsimp only
  repeat' split
  · exact hs.of_same rfl rfl rfl rfl
  · exact forwardStep_recordsTied _ (hs.of_same rfl rfl rfl rfl)
  · exact hs.of_kept (enterState_watchKept_after _ _ s) (enterState_shrinks_after _ _ s).entriesLast
  · exact hs.of_same rfl rfl rfl rfl

theorem handleEdge_recordsTied {s : State} (hs : RecordsTied s) : RecordsTied (handleEdge s) := by
  by_cases h : s.disc.state = .acquire
  · rw [handleEdge_of_acquire h]
    exact edgeInAcquire_recordsTied _ hs
  · exact hs.of_kept (handleEdge_watchKept h) (handleEdge_shrinks h).entriesLast

theorem activeEdge_recordsTied (change : Edge) {s : State} (hs : RecordsTied s) : RecordsTied (activeEdge change s) := by
  unfold activeEdge
  repeat' split
  · exact handleEdge_recordsTied (hs.of_same rfl rfl rfl rfl)
  · exact hs.of_logOnly (occur_logOnly _ _ _ s)
  · exact hs

/-! ## Admissions -/

/-- A SCHEDULE AT admits an entry without an in pin (R41). -/
theorem readScheduleAt_timed {args : List Byte} {a : Admission} (h : readScheduleAt args = some a) :
    ∃ periodic, a.kind = .timed periodic := by
  simp only [readScheduleAt, Option.bind_eq_bind, Option.bind_eq_some_iff] at h
  obtain ⟨action, -, n, -, periodic, -, vector, -, h⟩ := h
  split at h
  · cases h
    exact ⟨periodic, rfl⟩
  · cases h

theorem inPin_of_timed {e : Entry} {periodic : Option Periodic} (h : e.kind = .timed periodic) : e.inPin = none := by
  simp [Entry.inPin, h]

theorem scheduleAt_recordsTied (p : Port) (args : List Byte) {s : State} (hs : RecordsTied s) :
    RecordsTied (scheduleAt p args s).state := by
  unfold scheduleAt
  dsimp only
  repeat' split
  · exact hs
  · exact hs
  · exact hs
  · exact hs
  · next a hread _ slot _ =>
    obtain ⟨periodic, hkind⟩ := readScheduleAt_timed hread
    have harmed : RecordsTied (armEntry ⟨a.entry p slot, fld args 3 8, .lead⟩ s) :=
      hs.join (.of_pins rfl rfl rfl) (fun _ => armEntry_live) fun k hin => by
        rw [inPin_of_timed hkind] at hin
        cases hin
    simp only [ok, placeTimed]
    split
    · exact takeDue_recordsTied true harmed
    · exact harmed

/-- SCHEDULE ON EDGE asks for an in pin that is IN (R109). -/
theorem scheduleOnEdge_recordsTied (p : Port) (args : List Byte) {s : State} (hs : RecordsTied s) :
    RecordsTied (scheduleOnEdge p args s).state := by
  unfold scheduleOnEdge
  dsimp only
  repeat' split
  · exact hs
  · exact hs
  · exact hs
  · exact hs
  · next a _ hin _ slot _ =>
    refine hs.join (.of_pins rfl rfl rfl) (fun _ => waitEntry_live) fun k hk => isIn_iff.1 ?_
    have hsame : (a.entry p 0).inPin = some k := hk
    simpa [hsame] using hin

/-! ## Commands that drive, claim and configure pins -/

theorem safeDriveAll_watchKept (s : State) : WatchKept s (safeDriveAll s) := .of_map rfl rfl rfl (PinCell.driveSafe_map _)

theorem enterHeld_watchKept (s : State) : WatchKept s (enterHeld s) := by
  unfold enterHeld
  split
  · exact .refl s
  · exact (safeDriveAll_watchKept _).after (.of_pins rfl rfl rfl)

theorem takeHoldNotice_watchKept (s : State) : WatchKept s (takeHoldNotice s) := by
  unfold takeHoldNotice
  split
  · exact (enterHeld_watchKept _).after (.of_pins rfl rfl rfl)
  · exact .refl s

theorem hold_watchKept (p : Port) (args : List Byte) (s : State) : WatchKept s (hold p args s).state := by
  unfold hold
  repeat' split
  · exact .refl s
  · exact .refl s
  · exact enterHeld_watchKept s

theorem contentionCheck_watchKept (pin : Pin) (level : Level) (s : State) : WatchKept s (contentionCheck pin level s) := by
  have hidle : WatchKept s { s with pins := s.pins.upd pin fun c => { c with check := none } } :=
    .of_upd (f := fun c => { c with check := none }) rfl rfl rfl fun _ => rfl
  unfold contentionCheck
  dsimp only
  repeat' split
  · exact hidle
  · exact hidle
  · exact hidle.trans (.of_logOnly (occur_logOnly _ _ _ _))
  · exact .refl s

theorem loseClaim_watchKept (p : Port) (pin : Pin) (why : Reason) (s : State) : WatchKept s (loseClaim p pin why s) := by
  have hpurged : WatchKept s (purgePin p pin why s) :=
    (WatchKept.of_logOnly (postCancelled_logOnly why _ _)).after (.of_pins rfl rfl rfl)
  have hcleared : WatchKept (purgePin p pin why s)
      { purgePin p pin why s with pins := (purgePin p pin why s).pins.upd pin fun c => { c with holder := none } } :=
    .of_upd (f := fun c => { c with holder := none }) rfl rfl rfl fun _ => rfl
  exact (hpurged.trans hcleared).trans (.of_upd rfl rfl rfl (PinCell.driveSafe_map _))

theorem expireClaims_watchKept (p : Port) (ks : List Pin) (s : State) : WatchKept s (expireClaims p ks s) := by
  induction ks generalizing s with
  | nil => exact .refl s
  | cons k ks ih =>
    unfold expireClaims
    split
    · exact ((loseClaim_watchKept p k .lease s).trans (.of_logOnly (post_logOnly _ _ _))).trans (ih _)
    · exact ih s

theorem leaseReported_watchKept (p : Port) (s : State) : WatchKept s (leaseReported p s) where
  load := (leaseReported_fireOnly p s).load
  watch := (leaseReported_fireOnly p s).watch
  map k := by
    obtain ⟨hpins, -⟩ := leaseReported_claims p s
    rw [hpins]
    exact (expireClaims_watchKept p allPins s).map k

theorem leaseExpiry_watchKept (p : Port) (s : State) : WatchKept s (leaseExpiry p s) := by
  have hreported := leaseReported_watchKept p s
  unfold leaseReported claimsLost at hreported
  unfold leaseExpiry
  dsimp only
  split
  · generalize raiseClass p .claim _ = reported at hreported ⊢
    exact hreported.trans (.of_pins rfl rfl rfl)
  · exact .refl s

theorem pinRelease_watchKept (p : Port) (args : List Byte) (s : State) : WatchKept s (pinRelease p args s).state := by
  unfold pinRelease
  repeat' split
  · exact .refl s
  · exact .refl s
  · exact .refl s
  · exact loseClaim_watchKept _ _ _ s

theorem PinCell.releasePort_map (p : Port) (rt : Nat) (c : PinCell) : (c.releasePort p rt).map = c.map := by
  unfold releasePort
  split
  · exact driveSafe_map _ _
  · rfl

theorem portResetOf_watchKept (p : Port) (s : State) : WatchKept s (portResetOf p s) :=
  .of_map rfl rfl rfl (PinCell.releasePort_map p _)

theorem prstnFall_watchKept (p : Port) (s : State) : WatchKept s (prstnFall p s) := by
  have hpull : WatchKept s (pullPrstn p s) := .of_pins rfl rfl rfl
  unfold prstnFall
  dsimp only
  repeat' split
  · exact .refl s
  · exact hpull.trans (portResetOf_watchKept p _)
  · exact hpull

theorem cancel_watchKept (p : Port) (args : List Byte) (s : State) : WatchKept s (cancel p args s).state := by
  have hdrive : ∀ a, WatchKept s (cancelDrive a s) := fun a => by
    unfold cancelDrive
    repeat' split
    · exact .refl s
    · exact .refl s
    · exact expiryDrive_watchKept a s
  unfold cancel
  dsimp only
  repeat' split
  · exact .refl s
  · exact (hdrive _).trans (.of_pins rfl rfl rfl)
  · exact .of_pins rfl rfl rfl
  · exact .refl s

theorem pinClaim_watchKept (p : Port) (args : List Byte) (s : State) : WatchKept s (pinClaim p args s).state := by
  unfold pinClaim
  repeat' split
  · exact .refl s
  · exact .refl s
  · exact .refl s
  · exact .refl s
  · exact .refl s
  · exact .refl s
  · exact .of_upd (f := fun c => { c with holder := some p }) rfl rfl rfl fun _ => rfl

theorem pinWrite_watchKept (p : Port) (args : List Byte) (s : State) : WatchKept s (pinWrite p args s).state := by
  unfold pinWrite
  repeat' split
  · exact .refl s
  · exact .refl s
  · exact .refl s
  · exact .refl s
  · exact levelDrive_watchKept _ _ s
  · exact .refl s
  · exact .refl s

theorem request_watchKept {p : Port} {code : Byte} {s : State} {rule : State → Reply} (h : WatchKept s (rule s).state) :
    WatchKept s (request p code s rule) := by
  rcases request_cases p code s rule with ⟨e, -⟩ | ⟨e, -⟩ <;> rw [e]
  · exact .of_pins rfl rfl rfl
  · exact h.trans (.of_pins rfl rfl rfl)

theorem portReset_watchKept {p : Port} {args : List Byte} {s t : State} (h : exec (.portReset p args) s = .next t) :
    WatchKept s t := by
  cases h
  repeat' split
  · exact request_watchKept (.refl s)
  · exact portResetOf_watchKept p s
  · exact .of_pins rfl rfl rfl

/-! ## PIN CONFIGURE -/

theorem pinConfigured_map (k : Pin) (m : PinMap) (level : Level) (s : State) (j : Pin) :
    ((pinConfigured k m level s).pins.get j).map = if k = j then m else (s.pins.get j).map := by
  rw [pinConfigured, Tab.get_upd]
  split
  next => exact PinCell.configure_map _ _
  next => rfl

/-- A pin keeps its record while it stays IN, gets one as it becomes IN, and loses it as it leaves IN (R104). -/
theorem watchAfter_ne_none {before after : Direction} {level : Level} {w : Option Watch} (h : w ≠ none ↔ before = .input) :
    watchAfter before after level w ≠ none ↔ after = .input := by
  unfold watchAfter
  split
  next hafter =>
    split
    next hbefore => exact ⟨fun _ => hafter, fun _ => h.2 hbefore⟩
    next => exact ⟨fun _ => hafter, fun _ => Option.some_ne_none _⟩
  next hafter => exact ⟨fun hne => absurd rfl hne, fun heq => absurd heq hafter⟩

/-- The record of a configured pin is the one that it had, or one in IDLE with the level sensed there confirmed (R104). -/
theorem watchAfter_eq_some {before after : Direction} {level : Level} {w : Option Watch} {w' : Watch}
    (h : watchAfter before after level w = some w') : w = some w' ∨ w' = Watch.fresh level := by
  unfold watchAfter at h
  repeat' split at h
  · exact .inl h
  · exact .inr (Option.some.inj h).symm
  · cases h

/-- An in pin of a live entry is in use, so it keeps its direction (R75, R120). -/
theorem inPin_ne_of_not_inUse {k : Pin} {s : State} (h : s.pinInUse k = false) {e : Entry} (he : e ∈ s.sched.live) :
    e.inPin ≠ some k := fun hin =>
  Bool.false_ne_true (h.symm.trans (pinInUse_iff.2 (.inr (.inr ⟨e, he, .inr hin⟩))))

theorem pinConfigured_recordsTied {k : Pin} {m : PinMap} (level : Level) {s : State} (hs : RecordsTied s) (hload : s.load = none)
    (hfree : (s.pins.get k).map.dir ≠ m.dir → s.pinInUse k = false) : RecordsTied (pinConfigured k m level s) where
  present j := by
    have hpresent := hs.present j
    simp only [hload, true_and] at hpresent
    change (s.watch.upd k _).get j ≠ none ↔ s.load = none ∧ _
    rw [pinConfigured_map, Tab.get_upd]
    split
    next hkj =>
      subst hkj
      simpa only [hload, true_and] using watchAfter_ne_none hpresent
    next => simpa only [hload, true_and] using hpresent
  idle j w hw := by
    change (s.watch.upd k _).get j = some w at hw
    rw [Tab.get_upd] at hw
    split at hw
    next =>
      rcases watchAfter_eq_some hw with hbefore | rfl
      · exact hs.idle k w hbefore
      · exact fun _ => rfl
    next => exact hs.idle j w hw
  inPins e he j hin := by
    have hdir := hs.inPins e he j hin
    rw [pinConfigured_map]
    split
    next hkj =>
      subst hkj
      by_cases hsame : (s.pins.get k).map.dir = m.dir
      · exact hsame.symm.trans hdir
      · exact absurd hin (inPin_ne_of_not_inUse (hfree hsame) he)
    next => exact hdir

theorem pinConfigure_recordsTied (p : Port) (args : List Byte) (level : Level) {s : State} (hs : RecordsTied s)
    (hload : s.load = none) : RecordsTied (pinConfigure p args level s).state := by
  unfold pinConfigure
  repeat' split
  · exact hs
  · exact hs
  · exact hs
  · exact hs
  · exact hs
  · next hfree =>
    exact pinConfigured_recordsTied level hs hload fun hdir => Bool.eq_false_of_not_eq_true fun hused => hfree ⟨hdir, hused⟩

/-! ## Resets and the load -/

theorem hubResetAll_recordsTied (byRequest : Bool) (s : State) : RecordsTied (hubResetAll byRequest s) :=
  .of_empty (Option.some_ne_none _) (fun k => Tab.get_fill _ k) rfl

theorem powerOnValues_recordsTied (s : State) : RecordsTied (powerOnValues s) :=
  .of_empty (Option.some_ne_none _) (fun k => Tab.get_fill _ k) rfl

theorem powerLoss_recordsTied {s : State} (hs : RecordsTied s) : RecordsTied (powerLoss s) := by
  unfold powerLoss
  split
  · exact (powerOnValues_recordsTied s).of_same rfl rfl rfl rfl
  · exact hs

theorem resetnFall_recordsTied {s : State} (hs : RecordsTied s) : RecordsTied (resetnFall s) := by
  unfold resetnFall
  dsimp only
  repeat' split
  · exact hs
  · exact hubResetAll_recordsTied false _
  · exact hs.of_same rfl rfl rfl rfl

/-- The loaded map gives the records, each in IDLE with the level sensed at the load (R106). -/
theorem putSettings_recordsTied (kind : LoadKind) (w : Settings) (valid : Bool) (levels : BitVec 24) (begun : BitVec 4) {s : State}
    (hlive : s.sched.live = []) : RecordsTied (putSettings kind w valid levels begun s) where
  present k := by
    rw [putSettings_watch, putSettings_pin, PinCell.load_map]
    split
    next hin => exact ⟨fun _ => ⟨rfl, hin⟩, fun _ => Option.some_ne_none _⟩
    next hnot => exact ⟨fun hne => absurd rfl hne, fun ⟨_, hin⟩ => absurd hin hnot⟩
  idle k w' hw' := by
    rw [putSettings_watch] at hw'
    split at hw'
    · cases hw'
      exact fun _ => rfl
    · cases hw'
  inPins e he := by
    have hmem : e ∈ s.sched.live := he
    rw [hlive] at hmem
    cases hmem

/-- A load finds no entry (R70). -/
theorem settingsLoad_recordsTied (levels : BitVec 24) (begun : BitVec 4) {s : State} (hs : RecordsTied s)
    (hempty : EmptyBeforeLoad s) : RecordsTied (settingsLoad levels begun s) := by
  unfold settingsLoad
  split
  · exact hs
  · next kind hkind =>
    obtain ⟨hlive, -, -⟩ := hempty (by rw [hkind]; exact Option.some_ne_none kind)
    repeat' split
    · exact putSettings_recordsTied _ _ _ _ _ hlive
    · exact (putSettings_recordsTied _ _ _ _ _ hlive).of_logOnly (occur_logOnly _ _ _ _)
    · exact hs

/-! ## The commands that leave the watch records alone -/

theorem request_watch {p : Port} {code : Byte} {s : State} {rule : State → Reply} (h : (rule s).state.watch = s.watch) :
    (request p code s rule).watch = s.watch := by
  rcases request_cases p code s rule with ⟨e, -⟩ | ⟨e, -⟩ <;> rw [e]
  · rfl
  · exact h

theorem miss_watch (s : State) : (miss s).watch = s.watch := by
  unfold miss
  dsimp only
  repeat' split
  · exact (enterState_watchKept_after _ _ _).watch.trans (occur_logOnly _ _ _ (countMiss s)).watch
  · rfl
  · rfl

theorem storeCompletion_watch (verified : Bool) (s : State) : (storeCompletion verified s).watch = s.watch := by
  unfold storeCompletion
  dsimp only
  repeat' split
  · rfl
  · rfl
  · exact (postStoreDone_logOnly _ _ _).watch
  · exact (occur_logOnly _ _ _ _).watch.trans (postStoreDone_logOnly _ _ _).watch
  · rfl

theorem badFrame_watch (p : Port) (bytes : List Byte) (trailing : Nat) (s : State) :
    (badFrame p bytes trailing s).watch = s.watch := by
  unfold badFrame
  repeat' split
  · rfl
  · exact (occur_logOnly _ _ _ _).watch
  · rfl

theorem unknownRequest_watch (p : Port) (code : Byte) (args : List Byte) (s : State) :
    (unknownRequest p code args s).watch = s.watch := by
  unfold unknownRequest
  split
  · rfl
  · exact request_watch rfl

theorem resultRead_watch (p : Port) (s : State) : (resultRead p s).watch = s.watch := by
  unfold resultRead
  split <;> rfl

theorem prstnRise_watch (p : Port) (begun : Bool) (s : State) : (prstnRise p begun s).watch = s.watch := by
  unfold prstnRise
  split <;> rfl

theorem refConfigure_watch (p : Port) (args : List Byte) (s : State) : (refConfigure p args s).state.watch = s.watch := by
  unfold refConfigure
  repeat' split
  · rfl
  · rfl
  · rfl
  · exact (enterState_watchKept_after _ _ s).watch

theorem disciplineProfile_watch (p : Port) (args : List Byte) (s : State) :
    (disciplineProfile p args s).state.watch = s.watch := by
  unfold disciplineProfile
  dsimp only
  repeat' split
  all_goals rfl

theorem disciplineStatus_watch (p : Port) (args : List Byte) (s : State) : (disciplineStatus p args s).state.watch = s.watch := by
  unfold disciplineStatus
  split <;> rfl

theorem scheduleConfigure_watch (p : Port) (args : List Byte) (s : State) :
    (scheduleConfigure p args s).state.watch = s.watch := by
  unfold scheduleConfigure
  dsimp only
  repeat' split
  all_goals rfl

theorem subscribe_watch (p : Port) (args : List Byte) (s : State) : (subscribe p args s).state.watch = s.watch := by
  unfold subscribe
  repeat' split
  all_goals rfl

theorem eventRead_watch (p : Port) (args : List Byte) (s : State) : (eventRead p args s).state.watch = s.watch := by
  unfold eventRead
  dsimp only
  repeat' split
  all_goals rfl

theorem ringConfigure_watch (p : Port) (args : List Byte) (s : State) : (ringConfigure p args s).state.watch = s.watch := by
  unfold ringConfigure ok
  dsimp only
  repeat' split
  all_goals rfl

theorem vectorConfigure_watch (p : Port) (args : List Byte) (s : State) : (vectorConfigure p args s).state.watch = s.watch := by
  unfold vectorConfigure
  repeat' split
  all_goals rfl

theorem vectorAck_watch (p : Port) (args : List Byte) (s : State) : (vectorAck p args s).state.watch = s.watch := by
  unfold vectorAck
  dsimp only
  repeat' split
  all_goals rfl

theorem notifyControl_watch (p : Port) (args : List Byte) (s : State) : (notifyControl p args s).state.watch = s.watch := by
  unfold notifyControl
  repeat' split
  all_goals rfl

theorem faultClear_watch (p : Port) (args : List Byte) (s : State) : (faultClear p args s).state.watch = s.watch := by
  unfold faultClear
  repeat' split
  all_goals rfl

theorem faultConfigure_watch (p : Port) (args : List Byte) (s : State) : (faultConfigure p args s).state.watch = s.watch := by
  unfold faultConfigure
  repeat' split
  all_goals rfl

theorem faultRecordClear_watch (p : Port) (args : List Byte) (s : State) : (faultRecordClear p args s).state.watch = s.watch := by
  unfold faultRecordClear
  repeat' split
  all_goals rfl

theorem settingsClaim_watch (p : Port) (args : List Byte) (s : State) : (settingsClaim p args s).state.watch = s.watch := by
  unfold settingsClaim
  repeat' split
  all_goals rfl

theorem settingsRelease_watch (p : Port) (args : List Byte) (s : State) : (settingsRelease p args s).state.watch = s.watch := by
  unfold settingsRelease
  repeat' split
  all_goals rfl

theorem portLimitsSet_watch (p : Port) (args : List Byte) (s : State) : (portLimitsSet p args s).state.watch = s.watch := by
  unfold portLimitsSet
  dsimp only
  repeat' split
  all_goals rfl

theorem writeStore_watch (p : Port) (args : List Byte) (freeze : Bool) (s : State) :
    (writeStore p args freeze s).state.watch = s.watch := by
  unfold writeStore
  repeat' split
  all_goals rfl

theorem leaseSet_watch (p : Port) (args : List Byte) (s : State) : (leaseSet p args s).state.watch = s.watch := by
  unfold leaseSet
  repeat' split
  all_goals rfl

theorem leaseRenew_watch (p : Port) (args : List Byte) (s : State) : (leaseRenew p args s).state.watch = s.watch := by
  unfold leaseRenew
  split <;> rfl

/-- A read leaves the whole state, and so its records. -/
theorem watch_of_read {s t : State} (h : t = s) : t.watch = s.watch := by rw [h]

theorem exec_watch {c : Instr} {s t : State} (h : exec c s = .next t) (hmoves : movesEntries c = false)
    (hdrives : drivesPins c = false) : t.watch = s.watch := by
  cases c with
  | powerOn | powerLoss | resetnFall | hubReset | settingsLoad | advance | expiry | activeEdge | transition
  | debounceWindowEnd | timeSet | scheduleAt | scheduleOnEdge | resume | portLimitsSet => cases hmoves
  | contentionCheck | leaseExpiry | holdNotice | prstnFall | portReset | cancel | hold | pinConfigure | pinClaim
  | pinRelease | pinWrite => cases hdrives
  | miss => cases h; exact miss_watch s
  | storeCompletion verified => cases h; exact storeCompletion_watch verified s
  | badFrame p bytes trailing => cases h; exact badFrame_watch p bytes trailing s
  | unknownRequest p code args => cases h; exact unknownRequest_watch p code args s
  | resultRead p => cases h; exact resultRead_watch p s
  | identify p args => cases h; exact request_watch (watch_of_read (identify_state p args s))
  | portStatus p args => cases h; exact request_watch (watch_of_read (portStatus_state p args s))
  | leaseSet p args => cases h; exact request_watch (leaseSet_watch p args s)
  | leaseRenew p args => cases h; exact request_watch (leaseRenew_watch p args s)
  | timeRead p args => cases h; exact request_watch (watch_of_read (timeRead_state args s))
  | timeReadScaled p args => cases h; exact request_watch (watch_of_read (timeReadScaled_state args s))
  | refConfigure p args => cases h; exact request_watch (refConfigure_watch p args s)
  | disciplineProfile p args => cases h; exact request_watch (disciplineProfile_watch p args s)
  | disciplineStatus p args => cases h; exact request_watch (disciplineStatus_watch p args s)
  | entryQuery p args => cases h; exact request_watch (watch_of_read (entryQuery_state p args s))
  | scheduleList p args => cases h; exact request_watch (watch_of_read (scheduleList_state p args s))
  | scheduleConfigure p args => cases h; exact request_watch (scheduleConfigure_watch p args s)
  | pinRead p args => cases h; exact request_watch (watch_of_read (pinRead_state args s))
  | subscribe p args => cases h; exact request_watch (subscribe_watch p args s)
  | eventRead p args => cases h; exact request_watch (eventRead_watch p args s)
  | ringConfigure p args => cases h; exact request_watch (ringConfigure_watch p args s)
  | vectorConfigure p args => cases h; exact request_watch (vectorConfigure_watch p args s)
  | vectorAck p args => cases h; exact request_watch (vectorAck_watch p args s)
  | notifyControl p args => cases h; exact request_watch (notifyControl_watch p args s)
  | vectorRead p args => cases h; exact request_watch (watch_of_read (vectorRead_state p args s))
  | faultRead p args => cases h; exact request_watch (watch_of_read (faultRead_state args s))
  | faultClear p args => cases h; exact request_watch (faultClear_watch p args s)
  | faultConfigure p args => cases h; exact request_watch (faultConfigure_watch p args s)
  | faultRecordClear p args => cases h; exact request_watch (faultRecordClear_watch p args s)
  | settingsClaim p args => cases h; exact request_watch (settingsClaim_watch p args s)
  | settingsRelease p args => cases h; exact request_watch (settingsRelease_watch p args s)
  | settingsRead p args => cases h; exact request_watch (watch_of_read (settingsRead_state args s))
  | storeWrite p args => cases h; exact request_watch (writeStore_watch p args _ s)
  | storeFreeze p args => cases h; exact request_watch (writeStore_watch p args _ s)
  | prstnRise rise => cases h; exact prstnRise_watch _ _ s
  | resetnRise => cases h; rfl

/-- Such a command leaves the awaited load and the pins alone as well. -/
theorem exec_watchKept {c : Instr} {s t : State} (h : exec c s = .next t) (hmoves : movesEntries c = false)
    (hdrives : drivesPins c = false) : WatchKept s t :=
  .of_pins (exec_shrinks h hmoves).load (exec_watch h hmoves hdrives) (exec_samePins h hmoves hdrives).pins

/-! ## Every command -/

/-- A request is taken after the load only (R183). -/
theorem request_recordsTied {p : Port} {code : Byte} {s : State} {rule : State → Reply} (hs : RecordsTied s)
    (h : s.load = none → RecordsTied (rule s).state) : RecordsTied (request p code s rule) := by
  rcases request_cases p code s rule with ⟨e, -⟩ | ⟨e, htakes⟩ <;> rw [e]
  · exact hs.of_same rfl rfl rfl rfl
  · exact (h (load_none_of_takesFrames htakes)).of_same rfl rfl rfl rfl

theorem hubReset_recordsTied {p : Port} {args : List Byte} {s t : State} (h : exec (.hubReset p args) s = .next t)
    (hs : RecordsTied s) : RecordsTied t := by
  cases h
  repeat' split
  · exact request_recordsTied hs fun _ => hs
  · exact hubResetAll_recordsTied true s
  · exact hs.of_same rfl rfl rfl rfl

theorem resume_recordsTied (p : Port) (args : List Byte) {s : State} (hs : RecordsTied s) :
    RecordsTied (resume p args s).state := by
  have hrun : RecordsTied { s with sched := { s.sched with held := false } } := hs.of_kept (.of_pins rfl rfl rfl) (.of_eq rfl rfl)
  unfold resume
  repeat' split
  · exact hs
  · exact hs
  · exact hs
  · next htake =>
    have hfired := takeDue_recordsTied true hrun
    rw [htake] at hfired
    exact hfired
  · exact hs

theorem portLimitsSet_recordsTied (p : Port) (args : List Byte) {s : State} (hs : RecordsTied s) :
    RecordsTied (portLimitsSet p args s).state :=
  hs.of_same (portLimitsSet_sameCore p args s).load (portLimitsSet_watch p args s) (portLimitsSet_samePins p args s).pins
    (portLimitsSet_sched p args s)

section
variable {c : Instr} {s t : State} (h : exec c s = .next t) (hs : RecordsTied s)
include h hs

/-- The commands of `drivesPins`; only PIN CONFIGURE changes the map, and with it the records. -/
theorem exec_keeps_recordsTied_of_drives (hmoves : movesEntries c = false) (hc : drivesPins c = true) : RecordsTied t := by
  have hlast := (exec_shrinks h hmoves).entriesLast
  unfold drivesPins at hc
  split at hc
  · cases h; exact hs.of_kept (contentionCheck_watchKept _ _ s) hlast
  · cases h; exact hs.of_kept (leaseExpiry_watchKept _ s) hlast
  · cases h; exact hs.of_kept (takeHoldNotice_watchKept s) hlast
  · cases h; exact hs.of_kept (prstnFall_watchKept _ s) hlast
  · exact hs.of_kept (portReset_watchKept h) hlast
  · cases h; exact hs.of_kept (request_watchKept (cancel_watchKept _ _ s)) hlast
  · cases h; exact hs.of_kept (request_watchKept (hold_watchKept _ _ s)) hlast
  · cases h; exact request_recordsTied hs (pinConfigure_recordsTied _ _ _ hs)
  · cases h; exact hs.of_kept (request_watchKept (pinClaim_watchKept _ _ s)) hlast
  · cases h; exact hs.of_kept (request_watchKept (pinRelease_watchKept _ _ s)) hlast
  · cases h; exact hs.of_kept (request_watchKept (pinWrite_watchKept _ _ s)) hlast
  · cases hc

/-- The commands of `movesEntries`; only a load needs the emptiness before it. -/
theorem exec_keeps_recordsTied_of_moves (hempty : EmptyBeforeLoad s) (hc : movesEntries c = true) : RecordsTied t := by
  unfold movesEntries at hc
  split at hc
  · cases h; exact powerOnValues_recordsTied s
  · cases h; exact powerLoss_recordsTied hs
  · cases h; exact resetnFall_recordsTied hs
  · exact hubReset_recordsTied h hs
  · cases h; exact settingsLoad_recordsTied _ _ hs hempty
  · cases h
    split
    · exact hs.of_same rfl rfl rfl rfl
    · exact hs
  · cases h
    unfold expiry
    split
    · exact takeDue_recordsTied false hs
    · exact hs
  · cases h; exact activeEdge_recordsTied _ hs
  · cases h; exact transition_recordsTied _ _ hs
  · cases h; exact debounceWindowEnd_recordsTied _ _ hs
  · cases h; exact request_recordsTied hs fun _ => timeSet_recordsTied _ _ hs
  · cases h; exact request_recordsTied hs fun _ => scheduleAt_recordsTied _ _ hs
  · cases h; exact request_recordsTied hs fun _ => scheduleOnEdge_recordsTied _ _ hs
  · cases h; exact request_recordsTied hs fun _ => resume_recordsTied _ _ hs
  · cases h; exact request_recordsTied hs fun _ => portLimitsSet_recordsTied _ _ hs
  · cases hc

theorem exec_keeps_recordsTied (hempty : EmptyBeforeLoad s) : RecordsTied t := by
  cases hmoves : movesEntries c with
  | true => exact exec_keeps_recordsTied_of_moves h hs hempty hmoves
  | false =>
    cases hdrives : drivesPins c with
    | true => exact exec_keeps_recordsTied_of_drives h hs hmoves hdrives
    | false => exact hs.of_kept (exec_watchKept h hmoves hdrives) (exec_shrinks h hmoves).entriesLast

end

theorem exec_keeps_watchTied {c : Instr} {s t : State} (h : exec c s = .next t) (hs : WatchTied s) : WatchTied t := by
  obtain ⟨hrecords, hempty⟩ := watchTied_iff.1 hs
  exact watchTied_iff.2 ⟨exec_keeps_recordsTied h hrecords hempty, exec_keeps_emptyBeforeLoad h hempty⟩

/-- Settles O45: `exec_keeps_watchTied` for the command at the front of the queue. -/
theorem everyStepKeepsTheWatchRecords : Obligations.EveryStepKeepsTheWatchRecords := fun _ _ hs h =>
  step_keeps (P := WatchTied) (fun _ _ h => h) exec_keeps_watchTied hs h

end Sys2Proof.Machine
end

section
/-! SUPPORT. Edges of pins: the CAPTURE records of a confirmed edge (R99, R100, R125), its arrival at the schedule (R101, R111,
R112), and what TRANSITION and DEBOUNCE_WINDOW_END make of a sensed level (R91 to R96). -/

namespace Sys2Proof.Machine

open Sys2Proof.Safety

/-! ## A posting to several rings, ring by ring -/

/-- Each of the rings takes the record once, and no other ring changes (R126, R128). -/
theorem ringPutAll_ring (q : Port) (r : Record) {ps : List Port} (hps : ps.Nodup) (s : State) :
    (ringPutAll r ps s).1.rings.get q = if q ∈ ps then (s.rings.get q).take r else s.rings.get q := by
  induction ps generalizing s with
  | nil => simp [ringPutAll]
  | cons p ps ih =>
    obtain ⟨hp, hps⟩ := List.nodup_cons.1 hps
    change (ringPutAll r ps (ringPut p r s).1).1.rings.get q = _
    rw [ih hps, ringPut_rings]
    by_cases hq : p = q
    · subst hq
      simp [hp]
    · simp [hq, Ne.symm hq]

/-- What joins each ring (R126, R128). -/
theorem ringPutAll_records (q : Port) (r : Record) {ps : List Port} (hps : ps.Nodup) (s : State) :
    ((ringPutAll r ps s).1.rings.get q).records = (s.rings.get q).records ++
      if q ∈ ps ∧ (s.rings.get q).records.length < 32 then [asAppended s q r] else [] := by
  rw [ringPutAll_ring q r hps]
  by_cases hq : q ∈ ps
  · by_cases hroom : (s.rings.get q).records.length < 32 <;> simp [hq, hroom, Ring.take, asAppended]
  · simp [hq]

/-- With room in each of the rings no overflow episode begins (R126, R128). -/
theorem ringPutAll_drops_of_room (r : Record) {ps : List Port} (hps : ps.Nodup) {s : State}
    (hroom : ∀ p ∈ ps, (s.rings.get p).records.length < 32) : (ringPutAll r ps s).2 = [] := by
  induction ps generalizing s with
  | nil => rfl
  | cons p ps ih =>
    obtain ⟨hp, hps⟩ := List.nodup_cons.1 hps
    have hfirst := (ringPut_append (hroom p List.mem_cons_self) r).2
    have hrest : (ringPutAll r ps (ringPut p r s).1).2 = [] := ih hps fun q hq => by
      have hne : p ≠ q := fun heq => hp (heq ▸ hq)
      rw [ringPut_rings, Tab.get_set_ne _ _ hne]
      exact hroom q (List.mem_cons_of_mem p hq)
    simp [ringPutAll, hfirst, hrest]

/-- The ring of `q` stays where it does not select FAULT (R125). -/
def UnselectedKept (q : Port) (s t : State) : Prop := (s.rings.get q).selFault = false → t.rings.get q = s.rings.get q

theorem UnselectedKept.of_rings {q : Port} {s t : State} (h : t.rings = s.rings) : UnselectedKept q s t := fun _ => by rw [h]

theorem faultSelectors_nodup (s : State) : (faultSelectors s).Nodup := List.Nodup.filter _ (by decide)

theorem notifyOccurrence_unselected (q : Port) (k : FaultKind) (sev : Severity) (s : State) :
    UnselectedKept q s (notifyOccurrence k sev s).1 := by
  intro hsel
  have hnot : q ∉ faultSelectors s := fun hmem => Bool.false_ne_true (hsel.symm.trans (mem_faultSelectors.1 hmem))
  rw [notifyOccurrence, raiseClassAll_rings, ringPutAll_ring q _ (faultSelectors_nodup s), if_neg hnot]

theorem unselectedKept_occurrenceKeeps (q : Port) : OccurrenceKeeps (UnselectedKept q) where
  same h := .of_rings h.rings
  trans h k hsel := (k (by rw [h hsel]; exact hsel)).trans (h hsel)
  bump _ _ := .of_rings rfl
  logged k port ctx s := .of_rings (occurrenceLogged_rings k port ctx s)
  notify := notifyOccurrence_unselected q

/-- A posting to other rings reaches a ring only by the FAULT record of an overflow there (R125, R128). -/
theorem postAll_other_ring {q : Port} {ps : List Port} (hps : ps.Nodup) (hq : q ∉ ps) (r : Record) {s : State}
    (h : (s.rings.get q).selFault = false ∨ ∀ o ∈ ps, (s.rings.get o).records.length < 32) :
    (postAll r ps s).rings.get q = s.rings.get q := by
  have hput : (ringPutAll r ps s).1.rings.get q = s.rings.get q := by rw [ringPutAll_ring q r hps, if_neg hq]
  change (reportOverflows (ringPutAll r ps s).2 (ringPutAll r ps s).1).rings.get q = _
  rcases h with hsel | hroom
  · exact ((unselectedKept_occurrenceKeeps q).reportOverflows _ _ (by rw [hput]; exact hsel)).trans hput
  · rw [ringPutAll_drops_of_room r hps hroom]
    exact hput

/-! ## The subscribers -/

theorem mem_subscribers {k : Pin} {ed : Edge} {p : Port} {s : State} :
    p ∈ subscribers k ed s ↔ ((s.subs.get p).get k).includes ed = true := by
  simp [subscribers, mem_allPorts]

theorem subscribers_nodup (k : Pin) (ed : Edge) (s : State) : (subscribers k ed s).Nodup := List.Nodup.filter _ (by decide)

/-! ## CAPTURE records in a list -/

/-- The body of any record but a CAPTURE record. -/
def RecordBody.NotCapture (b : RecordBody) : Prop := ∀ k ed, b ≠ .capture k ed

theorem captures_append (l l' : List Record) : captures (l ++ l') = captures l + captures l' := by
  simp [captures]

theorem captures_eq_zero {l : List Record} (h : ∀ r ∈ l, r.body.NotCapture) : captures l = 0 := by
  unfold captures
  rw [List.length_eq_zero_iff, List.filter_eq_nil_iff]
  intro r hr
  split
  next k ed hbody => exact absurd hbody (h r hr k ed)
  next => exact Bool.false_ne_true

theorem captures_singleton {r : Record} {k : Pin} {ed : Edge} (h : r.body = .capture k ed) : captures [r] = 1 := by
  simp [captures, h]

/-! ## The arrival at the schedule -/

theorem armQueues_rings (k : Pin) (ed : Edge) (stamp : Nat) (os : List Port) (s : State) :
    (armQueues k ed stamp os s).rings = s.rings := by
  have hone : ∀ (o : Port) (s : State), (armOldest k ed stamp o s).rings = s.rings := fun o s => by
    unfold armOldest
    split <;> rfl
  induction os generalizing s with
  | nil => rfl
  | cons o os ih => exact (ih _).trans (hone o s)

/-- The four owners' queues in port order (R111). -/
theorem armQueues_allPorts (k : Pin) (ed : Edge) (stamp : Nat) (s : State) : armQueues k ed stamp allPorts s =
    armOldest k ed stamp 3 (armOldest k ed stamp 2 (armOldest k ed stamp 1 (armOldest k ed stamp 0 s))) := rfl

/-- An edge arrival brings records of expiries only (R49, R51). -/
theorem edgeArrival_growsBy {P : RecordBody → Prop} (hfault : ∀ k sev, P (.fault k sev))
    (hfired : ∀ tag slot phase lateness skipped remaining, P (.fired tag slot phase lateness skipped remaining))
    (p : Port) (k : Pin) (ed : Edge) (stamp : Nat) (s : State) : GrowsBy P p s (edgeArrival k ed stamp s) :=
  (takeDue_growsBy hfault hfired true _).after (armQueues_rings k ed stamp allPorts s)

theorem edgeArrival_grow (k : Pin) (ed : Edge) (stamp : Nat) (s : State) : RecordsGrow s (edgeArrival k ed stamp s) := fun p => by
  obtain ⟨added, hadded, -⟩ :=
    (edgeArrival_growsBy (P := fun _ => True) (fun _ _ => trivial) (fun _ _ _ _ _ _ => trivial) p k ed stamp s).records
  exact ⟨added, hadded⟩

/-- Where nothing that an edge arms is due, it brings no expiry (R112). -/
theorem edgeArrival_of_not_due {k : Pin} {ed : Edge} {stamp : Nat} {s : State}
    (h : (armQueues k ed stamp allPorts s).expiryDue = false) : edgeArrival k ed stamp s = armQueues k ed stamp allPorts s := by
  rw [edgeArrival, takeDue_of_not_due h]

/-! ## A confirmed edge handed on -/

section
variable (k : Pin) (ed : Edge) (ht : Nat) (epoch : BitVec 16) (locked late : Bool) (s : State)

/-- The CAPTURE records of an edge posted to its subscribers (R99, R100). -/
def capturePosted : State := postAll ⟨.capture k ed, 0, late, locked, ht, epoch⟩ (subscribers k ed s) s

theorem handOn_eq : handOn k ed ht epoch locked late s = edgeArrival k ed ht (capturePosted k ed ht epoch locked late s) := rfl

theorem capturePosted_logOnly : LogOnly s (capturePosted k ed ht epoch locked late s) := postAll_logOnly _ _ s

/-- R99, R101, R111, R112. -/
theorem handOn_confirmed : Confirmed k ed ht s (handOn k ed ht epoch locked late s) := by
  have hposted := capturePosted_logOnly k ed ht epoch locked late s
  have heq := handOn_eq k ed ht epoch locked late s
  have hall := hposted.fire.trans (armQueues_fireOnly k ed ht allPorts _)
  refine ⟨_, _, hposted, fun q hnot hroom => ?others, armQueues_allPorts k ed ht _, by rw [heq, edgeArrival],
    fun hheld => ?held, fun _ hahead => ?ahead, fun hrun hsorted hpos => ?due⟩
  case others =>
    have hother : q ∉ subscribers k ed s := fun hmem => Bool.false_ne_true (hnot.symm.trans (mem_subscribers.1 hmem))
    exact postAll_other_ring (subscribers_nodup k ed s) hother _ (hroom.imp_right fun h o ho => h o (mem_subscribers.1 ho))
  case held => rw [heq, edgeArrival_of_not_due (expiryDue_of_held (hall.held.trans hheld))]
  case ahead => rw [heq, edgeArrival_of_not_due (expiryDue_of_ahead (by rwa [hall.time]))]
  case due =>
    have hfire := handOn_fireOnly k ed ht epoch locked late s
    have hnone := handOn_duesAhead k ed ht epoch locked late hsorted hpos (hfire.held.trans hrun)
    rwa [hfire.time] at hnone

/-- R99, R125: the posting puts one CAPTURE record into each subscriber's ring with room, and all that follows none into any. -/
theorem handOn_captured : CapturedBySubscribers k ed s (handOn k ed ht epoch locked late s) := by
  intro p added hadded
  have hput := ringPutAll_records p ⟨.capture k ed, 0, late, locked, ht, epoch⟩ (subscribers_nodup k ed s) s
  have hfault : ∀ kind sev, (RecordBody.fault kind sev).NotCapture := fun _ _ _ _ => RecordBody.noConfusion
  have hfired : ∀ tag slot phase lateness skipped remaining,
      (RecordBody.fired tag slot phase lateness skipped remaining).NotCapture := fun _ _ _ _ _ _ _ _ => RecordBody.noConfusion
  obtain ⟨later, hlater, hnone⟩ := ((reportOverflows_growsBy hfault _ _).trans (edgeArrival_growsBy hfault hfired p k ed ht
    (capturePosted k ed ht epoch locked late s))).records
  rw [handOn_eq, hlater, hput, List.append_assoc, List.append_cancel_left_eq] at hadded
  simp only [← mem_subscribers]
  rw [← hadded, captures_append, captures_eq_zero hnone, Nat.add_zero]
  split
  next => exact captures_singleton (k := k) (ed := ed) rfl
  next => rfl

/-- R99, R100: a subscriber with room has the record, stamped at the first transition. -/
theorem handOn_appended {p : Port} (hsub : ((s.subs.get p).get k).includes ed = true)
    (hroom : (s.rings.get p).records.length < 32) :
    Appended s (handOn k ed ht epoch locked late s) p ⟨.capture k ed, 0, late, locked, ht, epoch⟩ :=
  Appended_later (postAll_appended hroom _ (mem_subscribers.2 hsub)) (edgeArrival_grow k ed ht _)

/-- What a confirmed edge brings once its pin has a new watch record, which no ring and no subscription tells (R99 to R101). -/
theorem handOn_after_setWatch (w : Watch) {t : State} (heq : t = handOn k ed ht epoch locked late (setWatch k w s)) :
    FireOnly (setWatch k w s) t ∧ Confirmed k ed ht (setWatch k w s) t ∧ CapturedBySubscribers k ed s t ∧
      ∀ p : Port, ((s.subs.get p).get k).includes ed = true → (s.rings.get p).records.length < 32 →
        Appended s t p ⟨.capture k ed, 0, late, locked, ht, epoch⟩ := by
  have hcaptured := handOn_captured k ed ht epoch locked late (setWatch k w s)
  have happended := fun p => handOn_appended k ed ht epoch locked late (setWatch k w s) (p := p)
  have hfire := handOn_fireOnly k ed ht epoch locked late (setWatch k w s)
  have hconfirmed := handOn_confirmed k ed ht epoch locked late (setWatch k w s)
  rw [← heq] at hcaptured happended hfire hconfirmed
  exact ⟨hfire, hconfirmed, hcaptured, happended⟩

end

/-! ## TRANSITION -/

section
variable {k : Pin} {level : Level} {w : Watch} {s : State} (hpowered : s.powered = true) (hw : s.watch.get k = some w)
include hw

/-- A transition to the level already sensed is none (R91). -/
theorem transition_of_sensed (h : level = w.sensed) : transition k level s = s := by
  simp [transition, hw, h]

include hpowered

/-- R94. -/
theorem transition_in_window (h : level ≠ w.sensed) (hwindow : w.window ≠ none) :
    transition k level s = setWatch k { w with sensed := level } s := by
  obtain ⟨d, hd⟩ := Option.ne_none_iff_exists'.1 hwindow
  simp [transition, hw, hpowered, h, hd]

/-- R93. -/
theorem transition_opens (h : level ≠ w.sensed) (hwindow : w.window = none) (hdebounce : (s.pins.get k).map.debounceUs ≠ 0) :
    transition k level s = setWatch k { w with sensed := level, window := some (openWindow k s) } s := by
  simp [transition, hw, hpowered, h, hwindow, hdebounce]

/-- R96. -/
theorem transition_confirms (h : level ≠ w.sensed) (hwindow : w.window = none) (hdebounce : (s.pins.get k).map.debounceUs = 0) :
    transition k level s = handOn k (Edge.ofLevel level) s.time.ht s.time.epoch s.isLocked false
      (setWatch k ⟨none, level, level⟩ s) := by
  simp [transition, hw, hpowered, h, hwindow, hdebounce]

end

/-! ## DEBOUNCE_WINDOW_END -/

section
variable {k : Pin} {w : Watch} {d : Window} {s : State} (hw : s.watch.get k = some w) (hd : w.window = some d)
include hw hd

/-- Before its point a window does not end (R95). -/
theorem debounceWindowEnd_before (h : s.time.rt < d.windowEnd) (level : Level) : debounceWindowEnd k level s = s := by
  have hnot : s.windowDue k = none := by simp [State.windowDue, hw, hd, h]
  rw [debounceWindowEnd, hnot]

/-- R95. -/
theorem debounceWindowEnd_reached (hpowered : s.powered = true) (h : d.windowEnd ≤ s.time.rt) (level : Level) :
    debounceWindowEnd k level s =
      if level = w.confirmed then setWatch k ⟨none, level, level⟩ s
      else handOn k (Edge.ofLevel level) d.stampHt d.stampEpoch d.stampLocked d.stepMark
        (setWatch k ⟨none, level, level⟩ s) := by
  have hdue : s.windowDue k = some (w, d) := by simp [State.windowDue, hw, hd, hpowered, h]
  rw [debounceWindowEnd, hdue]

end

/-- Settles O44: the cases of a transition and of a window end, and what a confirmed edge brings by `handOn_confirmed`,
`handOn_captured` and `handOn_appended`. -/
theorem captureEventsConfirmEdges : Obligations.CaptureEventsConfirmEdges := by
  intro k level w s hpowered hw
  refine ⟨fun h => ?sensed, fun h hwindow => ?inWindow, fun h hwindow hdebounce => ?opens, fun h hwindow hdebounce => ?confirms,
    fun d hd => ⟨fun h => ?before, fun h hsame => ?noEdge, fun h hdiffers => ?ends⟩⟩
  case sensed => exact congrArg Host.Outcome.next (transition_of_sensed hw h)
  case inWindow => exact congrArg Host.Outcome.next (transition_in_window hpowered hw h hwindow)
  case opens => exact congrArg Host.Outcome.next (transition_opens hpowered hw h hwindow hdebounce)
  case confirms =>
    exact ⟨_, congrArg Host.Outcome.next (transition_confirms hpowered hw h hwindow hdebounce),
      handOn_after_setWatch _ _ _ _ _ _ _ _ rfl⟩
  case before => exact congrArg Host.Outcome.next (debounceWindowEnd_before hw hd h level)
  case noEdge =>
    exact congrArg Host.Outcome.next ((debounceWindowEnd_reached hw hd hpowered h level).trans (if_pos hsame))
  case ends =>
    exact ⟨_, congrArg Host.Outcome.next ((debounceWindowEnd_reached hw hd hpowered h level).trans (if_neg hdiffers)),
      handOn_after_setWatch _ _ _ _ _ _ _ _ rfl⟩

end Sys2Proof.Machine
end

section
/-! SUPPORT. SCHEDULE ON EDGE: the bytes of its arguments (R108, R203), its checks (R109), and its entry at the tail of a waiting queue
(R107, R110); and the arming of the oldest entry of a queue by an edge (R111, R113). -/

namespace Sys2Proof.Machine

open Sys2Proof.Safety

/-! ## The bytes of SCHEDULE ON EDGE -/

/-- The first fifteen bytes of SCHEDULE ON EDGE (R203). Its flags byte is that of a SCHEDULE AT without a period. -/
def onEdgeHead (tag : Byte) (a : Action) (pin : Pin) (ed : Edge) (offset rearm : Nat) (report : Bool) (v : Option VecNo) :
    List Byte :=
  [tag, b1 a.code, b1 (atFlags none v report), b1 pin.val, b1 (edgeCode ed)] ++ (beN 8 offset ++ beN 2 rearm)

section
variable {tag : Byte} {a : Action} {pin : Pin} {ed : Edge} {offset rearm : Nat} {report : Bool} {v : Option VecNo}

theorem onEdgeBytes_eq : onEdgeBytes tag a pin ed offset rearm report v =
    onEdgeHead tag a pin ed offset rearm report v ++ (actionBytes a ++ vectorBytes v) := by
  unfold onEdgeBytes onEdgeHead
  simp only [List.append_assoc]
  cases v <;> cases report <;> rfl

theorem onEdgeHead_length : (onEdgeHead tag a pin ed offset rearm report v).length = 15 := by
  simp [onEdgeHead]

/-- A field of the head of SCHEDULE ON EDGE is a field of the whole. -/
theorem onEdgeBytes_head {off len : Nat} (h : off + len ≤ 15) : fld (onEdgeBytes tag a pin ed offset rearm report v) off len =
    fld (onEdgeHead tag a pin ed offset rearm report v) off len := by
  rw [onEdgeBytes_eq, fld_append_left (by rwa [onEdgeHead_length])]

theorem onEdgeBytes_tag : fld (onEdgeBytes tag a pin ed offset rearm report v) 0 1 = tag.toNat := by
  simp [onEdgeBytes_head, onEdgeHead]

theorem onEdgeBytes_code : fld (onEdgeBytes tag a pin ed offset rearm report v) 1 1 = a.code := by
  cases a <;> simp [onEdgeBytes_head, onEdgeHead, Action.code]

theorem onEdgeBytes_flags : fld (onEdgeBytes tag a pin ed offset rearm report v) 2 1 = atFlags none v report := by
  obtain ⟨hflags, -⟩ := atFlags_bits none v report
  simp [onEdgeBytes_head, onEdgeHead, Nat.mod_eq_of_lt (show atFlags none v report < 256 by omega)]

theorem onEdgeBytes_pin : pinOfCode (fld (onEdgeBytes tag a pin ed offset rearm report v) 3 1) = some pin := by
  simp [onEdgeBytes_head, onEdgeHead, pinOfCode_mod]

theorem onEdgeBytes_edge : edgeOfCode (fld (onEdgeBytes tag a pin ed offset rearm report v) 4 1) = some ed := by
  cases ed <;> simp [onEdgeBytes_head, onEdgeHead, edgeCode, edgeOfCode]

theorem onEdgeBytes_offset (h : offset ≤ 2 ^ 40) : fld (onEdgeBytes tag a pin ed offset rearm report v) 5 8 = offset := by
  rw [onEdgeBytes_head (by decide)]
  exact (fld_behind rfl 0 8).trans (fld_beN_append (by omega) _)

theorem onEdgeBytes_rearm (h : rearm ≤ 65535) : fld (onEdgeBytes tag a pin ed offset rearm report v) 13 2 = rearm := by
  rw [onEdgeBytes_head (by decide), onEdgeHead, ← List.append_assoc]
  refine (fld_behind (by simp) 0 2).trans ?_
  rw [fld_beN, Nat.mod_eq_of_lt (by omega)]

/-- Check 1 of R109 passes on the bytes of an entry. -/
theorem onEdgeBytes_length : scheduleOnEdgeLength (onEdgeBytes tag a pin ed offset rearm report v) =
    some (onEdgeBytes tag a pin ed offset rearm report v).length := by
  obtain ⟨-, -, hvector, -⟩ := atFlags_bits none v report
  rw [scheduleOnEdgeLength, onEdgeBytes_code, onEdgeBytes_flags, hvector, actionLength_code, onEdgeBytes_eq]
  simp only [List.length_append, onEdgeHead_length, Option.map_some, Option.some.injEq]
  cases v <;> simp [vectorBytes, Nat.add_assoc]

variable (tag pin ed report v) in
/-- Check 2 of R109 passes on the bytes of an entry in range. -/
theorem readScheduleOnEdge_inRange (hwidth : ∀ k level width, a = .pulse k level width → 100 ≤ width ∧ width ≤ 4294967295)
    (hoffset : offset ≤ 2 ^ 40) (hrearm : rearm ≤ 65535) : readScheduleOnEdge (onEdgeBytes tag a pin ed offset rearm report v) =
      some ⟨tag, a, .edge pin ed offset rearm, report || decide (a = .notify), v⟩ := by
  obtain ⟨hflags, hperiod, hvector, -⟩ := atFlags_bits none v report
  have hfits : WidthFits a := fun k level width h => (hwidth k level width h).1
  have haction : readAction a.code (onEdgeBytes tag a pin ed offset rearm report v) 15 = some a := by
    rw [onEdgeBytes_eq]
    have hshort : ∀ k level width, a = .pulse k level width → width < 2 ^ 32 :=
      fun k level width h => Nat.lt_succ_of_le (hwidth k level width h).2
    rcases readAction_bytes onEdgeHead_length (vectorBytes v) hshort with ⟨hread, -⟩ | ⟨-, hnot⟩
    · exact hread
    · exact absurd hfits hnot
  have hread : readVector v.isSome (onEdgeBytes tag a pin ed offset rearm report v) (15 + (actionBytes a).length) = some v := by
    rw [onEdgeBytes_eq, ← List.append_assoc]
    exact readVector_bytes (by simp [onEdgeHead_length])
  have hlimit : offset ≤ spanLimit := hoffset
  simp [readScheduleOnEdge, onEdgeBytes_tag, onEdgeBytes_code, onEdgeBytes_flags, onEdgeBytes_pin, onEdgeBytes_edge,
    onEdgeBytes_offset hoffset, onEdgeBytes_rearm hrearm, actionLength_code, haction, hvector, hread, hflags, hperiod, hlimit,
    reportOf_flags]

end

/-! ## The ranges of any argument bytes -/

theorem scheduleOnEdgeLength_eq_some {args : List Byte} {n : Nat} (h : actionLength (fld args 1 1) = some n) :
    scheduleOnEdgeLength args = some (15 + n + (if fld args 2 1 / 2 % 2 = 1 then 1 else 0)) := by
  simp [scheduleOnEdgeLength, h, hasVector]

theorem readScheduleOnEdge_ranges {args : List Byte} {a : Admission} {n : Nat} (hlength : actionLength (fld args 1 1) = some n)
    (h : readScheduleOnEdge args = some a) :
    (fld args 2 1 % 2 ≠ 1 ∧ fld args 2 1 < 8 ∧ fld args 3 1 < 24 ∧ fld args 4 1 < 2 ∧ fld args 5 8 ≤ 2 ^ 40) ∧
      (fld args 1 1 ≠ 2 → fld args 15 1 < 24 ∧ fld args 16 1 < 2) ∧ (fld args 1 1 = 1 → 100 ≤ fld args 17 4) ∧
      (fld args 2 1 / 2 % 2 = 1 → fld args (15 + n) 1 < 8) := by
  simp only [readScheduleOnEdge, Option.bind_eq_bind, Option.bind_eq_some_iff, Option.ite_none_right_eq_some, hasPeriod, hasVector,
    hlength, Option.some.injEq, decide_eq_false_iff_not] at h
  obtain ⟨pin, hpin, ed, hed, action, haction, _, rfl, vector, hvector, ⟨hflags, hperiod, hoffset⟩, -⟩ := h
  obtain ⟨hcodes, hpulse⟩ := readAction_eq_some haction
  refine ⟨⟨hperiod, hflags, pinOfCode_eq_some hpin, edgeOfCode_eq_some hed, hoffset⟩, hcodes, fun hcode => (hpulse hcode).1,
    fun hpresent => ?_⟩
  rw [decide_eq_true hpresent] at hvector
  exact readVector_eq_some hvector

/-! ## The checks of R109, in order -/

/-- Check 3 of R109: the in pin of an EDGE entry is IN. -/
theorem inPin_isIn {a : Admission} {pin : Pin} {ed : Edge} {offset rearm : Nat} (hkind : a.kind = .edge pin ed offset rearm)
    (p : Port) (slot : Slot) (s : State) : ((a.entry p slot).inPin.any fun k => s.isIn k) = s.isIn pin := by
  simp [Entry.inPin, Admission.entry, hkind]

section
variable {p : Port} {args : List Byte} {s : State}

theorem scheduleOnEdge_of_length (h : scheduleOnEdgeLength args ≠ some args.length) :
    scheduleOnEdge p args s = refuse s .badArgument :=
  if_pos h

variable (hlength : scheduleOnEdgeLength args = some args.length)
include hlength

theorem scheduleOnEdge_of_unread (h : readScheduleOnEdge args = none) : scheduleOnEdge p args s = refuse s .badArgument := by
  rw [scheduleOnEdge, if_neg (not_not.2 hlength), h]

variable {a : Admission} {pin : Pin} {ed : Edge} {offset rearm : Nat} (hread : readScheduleOnEdge args = some a)
  (hkind : a.kind = .edge pin ed offset rearm)
include hread hkind

theorem scheduleOnEdge_of_not_input (h : (s.pins.get pin).map.dir ≠ .input) :
    scheduleOnEdge p args s = refuse s .wrongDirection := by
  rw [scheduleOnEdge, if_neg (not_not.2 hlength), hread]
  dsimp only
  rw [inPin_isIn hkind, Bool.eq_false_iff.2 (mt isIn_iff.1 h)]
  rfl

variable (hinput : (s.pins.get pin).map.dir = .input)
include hinput

theorem scheduleOnEdge_of_refused {st : Status} (h : admissionChecks p a s = .error st) :
    scheduleOnEdge p args s = refuse s st := by
  rw [scheduleOnEdge, if_neg (not_not.2 hlength), hread]
  dsimp only
  rw [inPin_isIn hkind, isIn_iff.2 hinput, h]
  rfl

theorem scheduleOnEdge_of_admitted {slot : Slot} (h : admissionChecks p a s = .ok slot) :
    scheduleOnEdge p args s = ok (waitEntry (a.entry p slot) s) [b1 slot.val] := by
  rw [scheduleOnEdge, if_neg (not_not.2 hlength), hread]
  dsimp only
  rw [inPin_isIn hkind, isIn_iff.2 hinput, h]
  rfl

end

/-! ## Waiting queues -/

theorem inQueue_iff {o : Port} {pin : Pin} {ed : Edge} {e : Entry} :
    e.inQueue o pin ed = true ↔ e.owner = o ∧ ∃ offset rearm, e.kind = .edge pin ed offset rearm := by
  unfold Entry.inQueue
  split
  next q hkind => simp [hkind]
  next pin' ed' offset rearm hkind => simp [hkind, and_assoc]

/-- An entry stands in one queue only (R107). -/
theorem inQueue_unique {o o' : Port} {pin pin' : Pin} {ed ed' : Edge} {e : Entry} (h : e.inQueue o pin ed = true)
    (h' : e.inQueue o' pin' ed' = true) : (o', pin', ed') = (o, pin, ed) := by
  obtain ⟨rfl, offset, rearm, hkind⟩ := inQueue_iff.1 h
  obtain ⟨rfl, offset', rearm', hkind'⟩ := inQueue_iff.1 h'
  obtain ⟨rfl, rfl, -⟩ := EntryKind.edge.inj (hkind.symm.trans hkind')
  rfl

/-- An entry that waits is the last of its queue (R107). -/
theorem waitEntry_queue {o : Port} {pin : Pin} {ed : Edge} {e : Entry} (h : e.inQueue o pin ed = true) (s : State) :
    (waitEntry e s).sched.queue o pin ed = s.sched.queue o pin ed ++ [e] := by
  simp [Schedule.queue, List.filter_append, h]

/-! ## The arming of the oldest entry (R111, R113) -/

theorem takeFirst_of_filter_nil {q : Entry → Bool} {l : List Entry} (h : l.filter q = []) : takeFirst q l = none := by
  induction l with
  | nil => rfl
  | cons x l ih =>
    obtain ⟨hx, hl⟩ := List.forall_mem_cons.1 (List.filter_eq_nil_iff.1 h)
    rw [takeFirst, if_neg hx, ih (List.filter_eq_nil_iff.2 hl)]

/-- `takeFirst` finds the head of the filtered list, and takes it from no list filtered by a test that it fails. -/
theorem takeFirst_of_filter_cons {q : Entry → Bool} {l es : List Entry} {e : Entry} (h : l.filter q = e :: es) :
    ∃ rest, takeFirst q l = some (e, rest) ∧ rest.filter q = es ∧
      ∀ r : Entry → Bool, r e = false → rest.filter r = l.filter r := by
  induction l with
  | nil => cases h
  | cons x l ih =>
    by_cases hx : q x = true
    · rw [List.filter_cons_of_pos hx] at h
      obtain ⟨rfl, hes⟩ := List.cons.inj h
      exact ⟨l, if_pos hx, hes, fun r hr => (List.filter_cons_of_neg (by simp [hr])).symm⟩
    · rw [List.filter_cons_of_neg hx] at h
      obtain ⟨rest, htake, hrest, hothers⟩ := ih h
      refine ⟨x :: rest, by rw [takeFirst, if_neg hx, htake], by rw [List.filter_cons_of_neg hx, hrest], fun r hr => ?_⟩
      simp only [List.filter_cons, hothers r hr]

section
variable {pin : Pin} {ed : Edge} {o : Port} {s : State}

/-- R113. -/
theorem armOldest_of_empty_queue (h : s.sched.queue o pin ed = []) (stamp : Nat) : armOldest pin ed stamp o s = s := by
  rw [armOldest, takeFirst_of_filter_nil h]

/-- R111: the oldest entry leaves its queue, and every other queue stays. -/
theorem armOldest_of_queue {e : Entry} {es : List Entry} (h : s.sched.queue o pin ed = e :: es) (stamp : Nat) :
    ∃ rest, armOldest pin ed stamp o s =
        armEntry ⟨e, min (stamp + e.offset) maxTime, .lead⟩ { s with sched := { s.sched with waiting := rest } } ∧
      rest.filter (Entry.inQueue o pin ed) = es ∧
      ∀ o' pin' ed', (o', pin', ed') ≠ (o, pin, ed) → rest.filter (Entry.inQueue o' pin' ed') = s.sched.queue o' pin' ed' := by
  obtain ⟨rest, htake, hrest, hothers⟩ := takeFirst_of_filter_cons h
  have he : e.inQueue o pin ed = true := List.of_mem_filter (h ▸ List.mem_cons_self)
  refine ⟨rest, by rw [armOldest, htake], hrest, fun o' pin' ed' hne => hothers _ ?_⟩
  exact Bool.eq_false_iff.2 fun he' => hne (inQueue_unique he he')

end

/-- Settles O27: the checks on the bytes of an entry and on any bytes, the tail of the queue, and the arming of its head. -/
theorem edgeEntriesQueueAndArmInOrder : Obligations.EdgeEntriesQueueAndArmInOrder := by
  refine ⟨fun p tag a pin ed offset rearm report v slot s htakes hwidth hoffset hrearm hinput hadmissible => ?admitted,
    fun p args s htakes => ⟨fun hlength => ?length, fun n hn hlength hrange => ?range⟩,
    fun p tag a pin ed offset rearm report v s st htakes hwidth hoffset hrearm hst => ?checks,
    fun pin ed stamp o s => ⟨fun e es hqueue t ht => ?oldest, fun hempty => armOldest_of_empty_queue hempty stamp⟩⟩
  case admitted =>
    have hrule := scheduleOnEdge_of_admitted (p := p) (s := s) onEdgeBytes_length
      (readScheduleOnEdge_inRange tag pin ed report v hwidth hoffset hrearm) rfl hinput (admissionChecks_of_admissible hadmissible)
    exact ⟨_, _, rfl, congrArg _ (request_carried htakes hrule), rfl,
      waitEntry_queue (inQueue_iff.2 ⟨rfl, offset, rearm, rfl⟩) s⟩
  case length =>
    refine congrArg _ (request_refused htakes (scheduleOnEdge_of_length fun heq => ?_))
    cases hn : actionLength (fld args 1 1) with
    | none => simp [scheduleOnEdgeLength, hn] at heq
    | some n => exact hlength n hn (Option.some.inj (heq.symm.trans (scheduleOnEdgeLength_eq_some hn)))
  case range =>
    refine congrArg _ (request_refused htakes
      (scheduleOnEdge_of_unread ((scheduleOnEdgeLength_eq_some hn).trans (congrArg some hlength.symm)) ?_))
    refine Option.eq_none_iff_forall_ne_some.2 fun a hread => ?_
    obtain ⟨hfixed, hcodes, hwidth, hvector⟩ := readScheduleOnEdge_ranges hn hread
    omega
  case checks =>
    have hread := readScheduleOnEdge_inRange tag pin ed report v hwidth hoffset hrearm
    refine congrArg _ (request_refused htakes ?_)
    rcases hst with ⟨rfl, hbad⟩ | ⟨hinput, hst⟩
    · exact scheduleOnEdge_of_not_input onEdgeBytes_length hread rfl hbad
    · refine scheduleOnEdge_of_refused onEdgeBytes_length hread rfl hinput ?_
      rcases hst with ⟨rfl, k, hpin, hbad⟩ | ⟨hdir, ⟨rfl, k, hpin, hbad⟩ | ⟨hholder, ⟨rfl, hused⟩ | ⟨htag, hst⟩⟩⟩
      · exact admissionChecks_of_wrongDirection hpin hbad
      · exact admissionChecks_of_notOwner hdir hpin hbad
      · exact admissionChecks_of_tagInUse hdir hholder hused
      · rcases hst with ⟨rfl, hfull⟩ | ⟨hfree, rfl, hquota⟩
        · exact admissionChecks_of_full hdir hholder htag hfull
        · exact admissionChecks_of_quota hdir hholder htag hfree hquota
  case oldest =>
    obtain ⟨rest, harm, hrest, hothers⟩ := armOldest_of_queue hqueue stamp
    rw [harm] at ht
    subst ht
    exact ⟨hrest, by rw [← maxTime_eq]; rfl, hothers, rfl⟩

end Sys2Proof.Machine
end

section
/-! SUPPORT. What a command keeps of the rings, the vectors and the fault log when every raise, posting and occurrence keeps it: the
commands that touch them by these alone, and the commands that write them themselves (R122, R126 to R128, R139 to R142, R154 to
R158). -/

namespace Sys2Proof.Machine

open Sys2Proof.Safety

/-! ## The shared operations -/

/-- A relation between states that each entry raise, occurrence and posting keeps, and that looks at nothing but the fault log, the
rings and the vectors. -/
structure LogKeeps (R : State → State → Prop) : Prop where
  same : ∀ {s t : State}, SameLog s t → R s t
  trans : ∀ {s t u : State}, R s t → R t u → R s u
  raise : ∀ p v s, R s (raiseVec p v s)
  occur : ∀ k port ctx s, R s (occur k port ctx s)
  post : ∀ p r s, R s (post p r s)
  postAll : ∀ r ps s, R s (postAll r ps s)

theorem SameLog.refl (s : State) : SameLog s s := ⟨rfl, rfl, rfl⟩

theorem SameLog.of_eq {s t : State} (h : t = s) : SameLog s t := h ▸ .refl s

theorem SameLog.trans {s t u : State} (h : SameLog s t) (k : SameLog t u) : SameLog s u :=
  ⟨k.faults.trans h.faults, k.rings.trans h.rings, k.vectors.trans h.vectors⟩

theorem request_sameLog {p : Port} {code : Byte} {s : State} {rule : State → Reply} (h : SameLog s (rule s).state) :
    SameLog s (request p code s rule) := by
  rcases request_cases p code s rule with ⟨e, -⟩ | ⟨e, -⟩ <;> rw [e]
  · exact ⟨rfl, rfl, rfl⟩
  · exact h.trans ⟨rfl, rfl, rfl⟩

theorem expiryDrive_sameLog (a : Armed) (s : State) : SameLog s (expiryDrive a s) := by
  unfold expiryDrive
  split <;> exact ⟨rfl, rfl, rfl⟩

theorem continueEntry_sameLog (a : Armed) (c : Continuation) (s : State) : SameLog s (continueEntry a c s) := by
  unfold continueEntry
  split <;> exact ⟨rfl, rfl, rfl⟩

theorem armQueues_sameLog (pin : Pin) (ed : Edge) (stamp : Nat) (os : List Port) (s : State) :
    SameLog s (armQueues pin ed stamp os s) := by
  induction os generalizing s with
  | nil => exact .refl s
  | cons o os ih =>
    have hone : SameLog s (armOldest pin ed stamp o s) := by
      unfold armOldest
      split <;> exact ⟨rfl, rfl, rfl⟩
    exact hone.trans (ih _)

theorem enterHeld_sameLog (s : State) : SameLog s (enterHeld s) := by
  unfold enterHeld
  split <;> exact ⟨rfl, rfl, rfl⟩

section
variable {R : State → State → Prop} (hR : LogKeeps R)
include hR

theorem LogKeeps.refl (s : State) : R s s := hR.same (.refl s)

/-- What comes before and leaves the log alone does not matter. -/
theorem LogKeeps.after {s t u : State} (k : R t u) (h : SameLog s t) : R s u := hR.trans (hR.same h) k

/-- What comes behind and leaves the log alone does not matter. -/
theorem LogKeeps.before {s t u : State} (k : R s t) (h : SameLog t u) : R s u := hR.trans k (hR.same h)

theorem LogKeeps.raiseClass (p : Port) (c : RaiseClass) (s : State) : R s (raiseClass p c s) := hR.raise _ _ s

theorem LogKeeps.raiseClassAll (c : RaiseClass) (ps : List Port) (s : State) : R s (raiseClassAll c ps s) := by
  induction ps generalizing s with
  | nil => exact hR.refl s
  | cons p ps ih => exact hR.trans (hR.raiseClass p c s) (ih _)

theorem LogKeeps.request {p : Port} {code : Byte} {s : State} {rule : State → Reply} (h : R s (rule s).state) :
    R s (request p code s rule) := by
  rcases request_cases p code s rule with ⟨e, -⟩ | ⟨e, -⟩ <;> rw [e]
  · exact hR.same ⟨rfl, rfl, rfl⟩
  · exact hR.before h ⟨rfl, rfl, rfl⟩

/-! ## Expiries -/

theorem LogKeeps.lateFire (a : Armed) (n : Nat) (s : State) : R s (lateFire a n s) := by
  unfold Machine.lateFire
  split
  · exact hR.occur _ _ _ s
  · exact hR.refl s

theorem LogKeeps.firedRecord (a : Armed) (n : Nat) (c : Continuation) (s : State) : R s (firedRecord a n c s) := by
  unfold Machine.firedRecord
  dsimp only
  split
  · exact hR.post _ _ s
  · exact hR.refl s

theorem LogKeeps.entryRaise (a : Armed) (s : State) : R s (entryRaise a s) := by
  unfold Machine.entryRaise
  split
  · exact hR.refl s
  · exact hR.raise _ _ s

theorem LogKeeps.completeFiring (a : Armed) (n : Nat) (s : State) : R s (completeFiring a n s) := by
  have hposted := hR.after (hR.firedRecord a n (a.continuation s.time.ht) _) (continueEntry_sameLog a (a.continuation s.time.ht) s)
  exact hR.trans (hR.trans hposted (hR.entryRaise a _)) (hR.lateFire a n _)

theorem LogKeeps.expireOne (a : Armed) (n : Nat) (s : State) : R s (expireOne a n s) := by
  have hdrive := expiryDrive_sameLog a s
  cases h : a.isLead with
  | true =>
    obtain ⟨k, level, width, hact, hphase⟩ := Armed.isLead_iff.1 h
    rw [expireOne_of_lead hact hphase]
    exact hR.after (hR.lateFire a n _) (hdrive.trans ⟨rfl, rfl, rfl⟩)
  | false =>
    rw [expireOne_of_not_lead h]
    exact hR.after (hR.completeFiring a n _) hdrive

theorem LogKeeps.takeDue (late : Bool) (s : State) : R s (takeDue late s).1 := by
  unfold Machine.takeDue
  generalize 2 * s.sched.armed.length = n
  induction n generalizing s with
  | zero => exact hR.refl s
  | succ n ih =>
    unfold expireDue
    split
    · exact hR.refl s
    · split
      · refine hR.trans ?_ (ih _)
        exact hR.after (hR.expireOne _ _ _) ⟨rfl, rfl, rfl⟩
      · exact hR.refl s

theorem LogKeeps.edgeArrival (pin : Pin) (ed : Edge) (stamp : Nat) (s : State) : R s (edgeArrival pin ed stamp s) :=
  hR.after (hR.takeDue true _) (armQueues_sameLog pin ed stamp allPorts s)

theorem LogKeeps.handOn (pin : Pin) (ed : Edge) (ht : Nat) (epoch : BitVec 16) (locked late : Bool) (s : State) :
    R s (handOn pin ed ht epoch locked late s) := hR.trans (hR.postAll _ _ s) (hR.edgeArrival pin ed ht _)

/-! ## Forward steps, and reports of a change of state -/

theorem LogKeeps.forwardStep (d : Nat) (s : State) : R s (forwardStep d s) := by
  obtain ⟨draws, horders⟩ := stepNotices_orders ((s.time.step d).ht - s.time.ht) { s with time := s.time.step d }
  refine hR.after (t := { markWindows { s with time := s.time.step d } with choices := draws }) ?_ ⟨rfl, rfl, rfl⟩
  unfold Machine.forwardStep
  rcases horders with h | h <;> dsimp only <;> rw [h]
  · exact hR.trans (hR.takeDue _ _) (hR.occur _ _ _ _)
  · exact hR.trans (hR.occur _ _ _ _) (hR.takeDue _ _)

theorem LogKeeps.reportChange (old new : DiscState) (s : State) : R s (reportChange old new s) :=
  hR.trans (hR.postAll _ _ s) (hR.raiseClassAll _ _ _)

theorem LogKeeps.enterState (new : DiscState) (s : State) : R s (enterState new s) := by
  unfold Machine.enterState
  dsimp only
  split
  · exact hR.same ⟨rfl, rfl, rfl⟩
  · exact hR.after (hR.reportChange _ _ _) ⟨rfl, rfl, rfl⟩

/-- A move to a state after a change of the discipline unit alone. -/
theorem LogKeeps.enterState_after (new : DiscState) (d : Discipline) (s : State) :
    R s (Machine.enterState new { s with disc := d }) := hR.after (hR.enterState new _) ⟨rfl, rfl, rfl⟩

/-! ## Edges and misses of the reference -/

theorem LogKeeps.intoLongWindow (e : Int) (s : State) : R s (intoLongWindow e s) := by
  unfold Machine.intoLongWindow
  dsimp only
  repeat' split
  · exact hR.same ⟨rfl, rfl, rfl⟩
  · exact hR.enterState_after _ _ s
  · exact hR.same ⟨rfl, rfl, rfl⟩

theorem LogKeeps.unlock (e : Int) (s : State) : R s (unlock e s) := by
  rcases unlock_cases e s with ⟨-, h⟩ | h | h <;> rw [h]
  · exact hR.after (hR.occur _ _ _ _) ⟨rfl, rfl, rfl⟩
  · exact hR.after (hR.trans (hR.occur _ _ _ _) (hR.reportChange _ _ _)) ⟨rfl, rfl, rfl⟩
  · exact hR.after (hR.trans (hR.reportChange _ _ _) (hR.occur _ _ _ _)) ⟨rfl, rfl, rfl⟩

theorem LogKeeps.edgeInAcquire (e : Int) (s : State) : R s (edgeInAcquire e s) := by
  unfold Machine.edgeInAcquire
  dsimp only
  repeat' split
  · exact hR.same ⟨rfl, rfl, rfl⟩
  · exact hR.after (hR.forwardStep _ _) ⟨rfl, rfl, rfl⟩
  · exact hR.enterState_after _ _ s
  · exact hR.same ⟨rfl, rfl, rfl⟩

theorem LogKeeps.handleEdge (s : State) : R s (handleEdge s) := by
  unfold Machine.handleEdge
  split
  · exact hR.refl s
  · unfold edgeInSearch
    split
    · exact hR.same ⟨rfl, rfl, rfl⟩
    · exact hR.enterState_after _ _ s
  · exact hR.edgeInAcquire _ s
  · unfold edgeInTrack
    split
    · exact hR.enterState_after _ _ s
    · exact hR.intoLongWindow _ s
  · unfold edgeInLocked
    split
    · exact hR.unlock _ s
    · exact hR.intoLongWindow _ s
  · unfold edgeInHoldover
    split
    · exact hR.same ⟨rfl, rfl, rfl⟩
    · exact hR.enterState_after _ _ s

theorem LogKeeps.activeEdge (change : Edge) (s : State) : R s (activeEdge change s) := by
  unfold Machine.activeEdge
  repeat' split
  · exact hR.after (hR.handleEdge _) ⟨rfl, rfl, rfl⟩
  · exact hR.occur _ _ _ s
  · exact hR.refl s

theorem LogKeeps.miss (s : State) : R s (miss s) := by
  unfold Machine.miss
  dsimp only
  repeat' split
  · have hlost : R s (Machine.occur .refLost none (.missCount 3) (countMiss s)) := hR.after (hR.occur _ _ _ _) ⟨rfl, rfl, rfl⟩
    exact hR.trans hlost (hR.enterState_after _ _ _)
  · exact hR.same ⟨rfl, rfl, rfl⟩
  · exact hR.refl s

/-! ## The other events -/

theorem LogKeeps.expiry (s : State) : R s (expiry s) := by
  unfold Machine.expiry
  split
  · exact hR.takeDue false s
  · exact hR.refl s

theorem LogKeeps.transition (pin : Pin) (level : Level) (s : State) : R s (transition pin level s) := by
  unfold Machine.transition
  repeat' split
  · exact hR.refl s
  · exact hR.same ⟨rfl, rfl, rfl⟩
  · exact hR.after (hR.handOn _ _ _ _ _ _ _) ⟨rfl, rfl, rfl⟩
  · exact hR.same ⟨rfl, rfl, rfl⟩
  · exact hR.refl s

theorem LogKeeps.debounceWindowEnd (pin : Pin) (level : Level) (s : State) : R s (debounceWindowEnd pin level s) := by
  unfold Machine.debounceWindowEnd
  dsimp only
  repeat' split
  · exact hR.refl s
  · exact hR.same ⟨rfl, rfl, rfl⟩
  · exact hR.after (hR.handOn _ _ _ _ _ _ _) ⟨rfl, rfl, rfl⟩

theorem LogKeeps.contentionCheck (pin : Pin) (level : Level) (s : State) : R s (contentionCheck pin level s) := by
  unfold Machine.contentionCheck
  dsimp only
  repeat' split
  · exact hR.same ⟨rfl, rfl, rfl⟩
  · exact hR.same ⟨rfl, rfl, rfl⟩
  · exact hR.after (hR.occur _ _ _ _) ⟨rfl, rfl, rfl⟩
  · exact hR.refl s

theorem LogKeeps.postCancelled (why : Reason) (es : List Entry) (s : State) : R s (postCancelled why es s) := by
  induction es generalizing s with
  | nil => exact hR.refl s
  | cons e es ih => exact hR.trans (hR.post _ _ s) (ih _)

theorem LogKeeps.loseClaim (p : Port) (pin : Pin) (why : Reason) (s : State) : R s (loseClaim p pin why s) := by
  have hpurged : R s (purgePin p pin why s) := hR.after (hR.postCancelled why _ _) ⟨rfl, rfl, rfl⟩
  exact hR.before hpurged ⟨rfl, rfl, rfl⟩

theorem LogKeeps.expireClaims (p : Port) (ks : List Pin) (s : State) : R s (expireClaims p ks s) := by
  induction ks generalizing s with
  | nil => exact hR.refl s
  | cons k ks ih =>
    unfold Machine.expireClaims
    split
    · exact hR.trans (hR.trans (hR.loseClaim p k .lease s) (hR.post _ _ _)) (ih _)
    · exact ih s

theorem LogKeeps.expireSettings (p : Port) (s : State) : R s (expireSettings p s) := by
  unfold Machine.expireSettings
  dsimp only
  split
  · exact hR.after (hR.post _ _ _) ⟨rfl, rfl, rfl⟩
  · exact hR.refl s

theorem LogKeeps.leaseReported (p : Port) (s : State) : R s (leaseReported p s) :=
  hR.trans (hR.trans (hR.expireClaims p allPins s) (hR.expireSettings p _))
    (hR.trans (hR.occur .leaseExpired (some p) .none _) (hR.raiseClass p .claim _))

theorem LogKeeps.leaseExpiry (p : Port) (s : State) : R s (leaseExpiry p s) := by
  have hreported := hR.leaseReported p s
  unfold Machine.leaseReported claimsLost at hreported
  unfold Machine.leaseExpiry
  dsimp only
  split
  · generalize Machine.raiseClass p .claim _ = reported at hreported ⊢
    exact hR.before hreported ⟨rfl, rfl, rfl⟩
  · exact hR.refl s

theorem LogKeeps.postStoreDone (requester : Option Port) (verified : Bool) (s : State) :
    R s (postStoreDone requester verified s) := by
  unfold Machine.postStoreDone
  split
  · exact hR.refl s
  · exact hR.trans (hR.post _ _ s) (hR.raiseClass _ _ _)

theorem LogKeeps.storeCompletion (verified : Bool) (s : State) : R s (storeCompletion verified s) := by
  unfold Machine.storeCompletion
  dsimp only
  repeat' split
  · exact hR.refl s
  · exact hR.refl s
  · exact hR.after (hR.postStoreDone _ _ _) ⟨rfl, rfl, rfl⟩
  · refine hR.trans ?_ (hR.occur _ _ _ _)
    exact hR.after (hR.postStoreDone _ _ _) ⟨rfl, rfl, rfl⟩
  · exact hR.refl s

theorem LogKeeps.badFrame (p : Port) (bytes : List Byte) (trailing : Nat) (s : State) : R s (badFrame p bytes trailing s) := by
  unfold Machine.badFrame
  repeat' split
  · exact hR.refl s
  · exact hR.after (hR.occur _ _ _ _) ⟨rfl, rfl, rfl⟩
  · exact hR.same ⟨rfl, rfl, rfl⟩

/-! ## Requests that bring expiries, reports or records -/

theorem LogKeeps.timeSet (p : Port) (args : List Byte) (s : State) : R s (timeSet p args s).state := by
  unfold Machine.timeSet ok
  dsimp only
  repeat' split
  · exact hR.refl s
  · exact hR.refl s
  · exact hR.refl s
  · exact hR.refl s
  · exact hR.refl s
  · exact hR.refl s
  · exact hR.forwardStep _ s

theorem LogKeeps.refConfigure (p : Port) (args : List Byte) (s : State) : R s (refConfigure p args s).state := by
  unfold Machine.refConfigure
  repeat' split
  · exact hR.refl s
  · exact hR.refl s
  · exact hR.refl s
  · exact hR.enterState_after _ _ s

theorem LogKeeps.scheduleAt (p : Port) (args : List Byte) (s : State) : R s (scheduleAt p args s).state := by
  unfold Machine.scheduleAt
  dsimp only
  repeat' split
  · exact hR.refl s
  · exact hR.refl s
  · exact hR.refl s
  · exact hR.refl s
  · simp only [ok, placeTimed]
    split
    · exact hR.after (hR.takeDue true _) ⟨rfl, rfl, rfl⟩
    · exact hR.same ⟨rfl, rfl, rfl⟩

theorem LogKeeps.resume (p : Port) (args : List Byte) (s : State) : R s (resume p args s).state := by
  unfold Machine.resume
  repeat' split
  · exact hR.refl s
  · exact hR.refl s
  · exact hR.refl s
  · next htake =>
    have hfired := hR.after (hR.takeDue true { s with sched := { s.sched with held := false } }) (s := s) ⟨rfl, rfl, rfl⟩
    rw [htake] at hfired
    exact hfired
  · exact hR.refl s

theorem LogKeeps.pinRelease (p : Port) (args : List Byte) (s : State) : R s (pinRelease p args s).state := by
  unfold Machine.pinRelease
  repeat' split
  · exact hR.refl s
  · exact hR.refl s
  · exact hR.refl s
  · exact hR.loseClaim _ _ _ s

end

/-! ## Commands that leave the log alone -/

theorem takeHoldNotice_sameLog (s : State) : SameLog s (takeHoldNotice s) := by
  unfold takeHoldNotice
  split
  · refine SameLog.trans ?_ (enterHeld_sameLog _)
    exact ⟨rfl, rfl, rfl⟩
  · exact .refl s

theorem unknownRequest_sameLog (p : Port) (code : Byte) (args : List Byte) (s : State) :
    SameLog s (unknownRequest p code args s) := by
  unfold unknownRequest
  split
  · exact .refl s
  · exact request_sameLog (.refl s)

theorem resultRead_sameLog (p : Port) (s : State) : SameLog s (resultRead p s) := by
  unfold resultRead
  split <;> exact ⟨rfl, rfl, rfl⟩

theorem prstnRise_sameLog (p : Port) (begun : Bool) (s : State) : SameLog s (prstnRise p begun s) := by
  unfold prstnRise
  split <;> exact ⟨rfl, rfl, rfl⟩

theorem execAdvance_sameLog {s t : State} (h : execAdvance s = .next t) : SameLog s t := by
  cases h
  split <;> exact ⟨rfl, rfl, rfl⟩

theorem leaseSet_sameLog (p : Port) (args : List Byte) (s : State) : SameLog s (leaseSet p args s).state := by
  unfold leaseSet
  repeat' split
  all_goals exact ⟨rfl, rfl, rfl⟩

theorem leaseRenew_sameLog (p : Port) (args : List Byte) (s : State) : SameLog s (leaseRenew p args s).state := by
  unfold leaseRenew
  split <;> exact ⟨rfl, rfl, rfl⟩

theorem disciplineProfile_sameLog (p : Port) (args : List Byte) (s : State) :
    SameLog s (disciplineProfile p args s).state := by
  unfold disciplineProfile
  dsimp only
  repeat' split
  all_goals exact ⟨rfl, rfl, rfl⟩

theorem disciplineStatus_sameLog (p : Port) (args : List Byte) (s : State) :
    SameLog s (disciplineStatus p args s).state := by
  unfold disciplineStatus
  split <;> exact ⟨rfl, rfl, rfl⟩

theorem scheduleOnEdge_sameLog (p : Port) (args : List Byte) (s : State) : SameLog s (scheduleOnEdge p args s).state := by
  unfold scheduleOnEdge
  dsimp only
  repeat' split
  all_goals exact ⟨rfl, rfl, rfl⟩

theorem cancel_sameLog (p : Port) (args : List Byte) (s : State) : SameLog s (cancel p args s).state := by
  have hdrive : ∀ a, SameLog s (cancelDrive a s) := fun a => by
    unfold cancelDrive
    repeat' split
    · exact .refl s
    · exact .refl s
    · exact expiryDrive_sameLog a s
  unfold cancel
  dsimp only
  repeat' split
  · exact .refl s
  · exact (hdrive _).trans ⟨rfl, rfl, rfl⟩
  · exact ⟨rfl, rfl, rfl⟩
  · exact .refl s

theorem hold_sameLog (p : Port) (args : List Byte) (s : State) : SameLog s (hold p args s).state := by
  unfold hold
  repeat' split
  · exact .refl s
  · exact .refl s
  · exact enterHeld_sameLog s

theorem scheduleConfigure_sameLog (p : Port) (args : List Byte) (s : State) :
    SameLog s (scheduleConfigure p args s).state := by
  unfold scheduleConfigure
  dsimp only
  repeat' split
  all_goals exact ⟨rfl, rfl, rfl⟩

theorem pinConfigure_sameLog (p : Port) (args : List Byte) (level : Level) (s : State) :
    SameLog s (pinConfigure p args level s).state := by
  unfold pinConfigure
  repeat' split
  all_goals exact ⟨rfl, rfl, rfl⟩

theorem pinClaim_sameLog (p : Port) (args : List Byte) (s : State) : SameLog s (pinClaim p args s).state := by
  unfold pinClaim
  repeat' split
  all_goals exact ⟨rfl, rfl, rfl⟩

theorem pinWrite_sameLog (p : Port) (args : List Byte) (s : State) : SameLog s (pinWrite p args s).state := by
  unfold pinWrite
  repeat' split
  all_goals exact ⟨rfl, rfl, rfl⟩

theorem subscribe_sameLog (p : Port) (args : List Byte) (s : State) : SameLog s (subscribe p args s).state := by
  unfold subscribe
  repeat' split
  all_goals exact ⟨rfl, rfl, rfl⟩

theorem settingsClaim_sameLog (p : Port) (args : List Byte) (s : State) : SameLog s (settingsClaim p args s).state := by
  unfold settingsClaim
  repeat' split
  all_goals exact ⟨rfl, rfl, rfl⟩

theorem settingsRelease_sameLog (p : Port) (args : List Byte) (s : State) : SameLog s (settingsRelease p args s).state := by
  unfold settingsRelease
  repeat' split
  all_goals exact ⟨rfl, rfl, rfl⟩

theorem portLimitsSet_sameLog (p : Port) (args : List Byte) (s : State) : SameLog s (portLimitsSet p args s).state := by
  unfold portLimitsSet
  dsimp only
  repeat' split
  all_goals exact ⟨rfl, rfl, rfl⟩

theorem writeStore_sameLog (p : Port) (args : List Byte) (freeze : Bool) (s : State) :
    SameLog s (writeStore p args freeze s).state := by
  unfold writeStore
  repeat' split
  all_goals exact ⟨rfl, rfl, rfl⟩

/-! ## Every command -/

/-- The commands that write the rings, the vectors or the fault log themselves: resets, supply and load, and the requests of the
rings, the notification unit and the fault log. -/
def writesLog : Instr → Bool
  | .powerOn | .powerLoss | .resetnFall | .prstnFall _ | .portReset _ _ | .hubReset _ _ | .settingsLoad _
  | .eventRead _ _ | .ringConfigure _ _ | .vectorConfigure _ _ | .vectorAck _ _ | .notifyControl _ _
  | .faultClear _ _ | .faultConfigure _ _ | .faultRecordClear _ _ => true
  | _ => false

/-- Every other command touches them by raises, occurrences and postings alone. -/
theorem LogKeeps.exec {R : State → State → Prop} (hR : LogKeeps R) {c : Instr} {s t : State} (h : exec c s = .next t)
    (hc : writesLog c = false) : R s t := by
  cases c with
  | powerOn | powerLoss | resetnFall | prstnFall | portReset | hubReset | settingsLoad | eventRead | ringConfigure
  | vectorConfigure | vectorAck | notifyControl | faultClear | faultConfigure | faultRecordClear => cases hc
  | advance => exact hR.same (execAdvance_sameLog h)
  | expiry => cases h; exact hR.expiry s
  | activeEdge change => cases h; exact hR.activeEdge change s
  | miss => cases h; exact hR.miss s
  | transition pin level => cases h; exact hR.transition pin level s
  | debounceWindowEnd pin level => cases h; exact hR.debounceWindowEnd pin level s
  | contentionCheck pin level => cases h; exact hR.contentionCheck pin level s
  | leaseExpiry p => cases h; exact hR.leaseExpiry p s
  | storeCompletion verified => cases h; exact hR.storeCompletion verified s
  | holdNotice => cases h; exact hR.same (takeHoldNotice_sameLog s)
  | badFrame p bytes trailing => cases h; exact hR.badFrame p bytes trailing s
  | unknownRequest p code args => cases h; exact hR.same (unknownRequest_sameLog p code args s)
  | resultRead p => cases h; exact hR.same (resultRead_sameLog p s)
  | prstnRise rise => cases h; exact hR.same (prstnRise_sameLog _ _ s)
  | resetnRise => cases h; exact hR.same ⟨rfl, rfl, rfl⟩
  | timeSet p args => cases h; exact hR.request (hR.timeSet p args s)
  | refConfigure p args => cases h; exact hR.request (hR.refConfigure p args s)
  | scheduleAt p args => cases h; exact hR.request (hR.scheduleAt p args s)
  | resume p args => cases h; exact hR.request (hR.resume p args s)
  | pinRelease p args => cases h; exact hR.request (hR.pinRelease p args s)
  | identify p args => cases h; exact hR.same (request_sameLog (.of_eq (identify_state p args s)))
  | portStatus p args => cases h; exact hR.same (request_sameLog (.of_eq (portStatus_state p args s)))
  | timeRead p args => cases h; exact hR.same (request_sameLog (.of_eq (timeRead_state args s)))
  | timeReadScaled p args => cases h; exact hR.same (request_sameLog (.of_eq (timeReadScaled_state args s)))
  | entryQuery p args => cases h; exact hR.same (request_sameLog (.of_eq (entryQuery_state p args s)))
  | scheduleList p args => cases h; exact hR.same (request_sameLog (.of_eq (scheduleList_state p args s)))
  | pinRead p args => cases h; exact hR.same (request_sameLog (.of_eq (pinRead_state args s)))
  | vectorRead p args => cases h; exact hR.same (request_sameLog (.of_eq (vectorRead_state p args s)))
  | faultRead p args => cases h; exact hR.same (request_sameLog (.of_eq (faultRead_state args s)))
  | settingsRead p args => cases h; exact hR.same (request_sameLog (.of_eq (settingsRead_state args s)))
  | leaseSet p args => cases h; exact hR.same (request_sameLog (leaseSet_sameLog p args s))
  | leaseRenew p args => cases h; exact hR.same (request_sameLog (leaseRenew_sameLog p args s))
  | disciplineProfile p args => cases h; exact hR.same (request_sameLog (disciplineProfile_sameLog p args s))
  | disciplineStatus p args => cases h; exact hR.same (request_sameLog (disciplineStatus_sameLog p args s))
  | scheduleOnEdge p args => cases h; exact hR.same (request_sameLog (scheduleOnEdge_sameLog p args s))
  | cancel p args => cases h; exact hR.same (request_sameLog (cancel_sameLog p args s))
  | hold p args => cases h; exact hR.same (request_sameLog (hold_sameLog p args s))
  | scheduleConfigure p args => cases h; exact hR.same (request_sameLog (scheduleConfigure_sameLog p args s))
  | pinConfigure p args level => cases h; exact hR.same (request_sameLog (pinConfigure_sameLog p args level s))
  | pinClaim p args => cases h; exact hR.same (request_sameLog (pinClaim_sameLog p args s))
  | pinWrite p args => cases h; exact hR.same (request_sameLog (pinWrite_sameLog p args s))
  | subscribe p args => cases h; exact hR.same (request_sameLog (subscribe_sameLog p args s))
  | settingsClaim p args => cases h; exact hR.same (request_sameLog (settingsClaim_sameLog p args s))
  | settingsRelease p args => cases h; exact hR.same (request_sameLog (settingsRelease_sameLog p args s))
  | portLimitsSet p args => cases h; exact hR.same (request_sameLog (portLimitsSet_sameLog p args s))
  | storeWrite p args => cases h; exact hR.same (request_sameLog (writeStore_sameLog p args _ s))
  | storeFreeze p args => cases h; exact hR.same (request_sameLog (writeStore_sameLog p args _ s))

end Sys2Proof.Machine
end

section
/-! SUPPORT. What every step keeps of the rings: at most 32 records, the mark to 31, and the counts to 255 (R121, R126, R128, R130,
R132, R136). -/

namespace Sys2Proof.Machine

open Sys2Proof.Safety

/-! ## One ring -/

/-- The part of `Safety.RingsBounded` that speaks of one ring. -/
structure Ring.Bounded (g : Ring) : Prop where
  length : g.records.length ≤ 32
  mark : g.mark ≤ 31
  pending : g.pendingDrops ≤ 255
  dropped : ∀ r ∈ g.records, r.dropped ≤ 255

theorem ringsBounded_iff {s : State} : RingsBounded s ↔ ∀ p, (s.rings.get p).Bounded :=
  forall_congr' fun _ => ⟨fun ⟨hlength, hmark, hpending, hdropped⟩ => ⟨hlength, hmark, hpending, hdropped⟩,
    fun ⟨hlength, hmark, hpending, hdropped⟩ => ⟨hlength, hmark, hpending, hdropped⟩⟩

theorem Ring.reset_bounded : Ring.reset.Bounded where
  length := by decide
  mark := by decide
  pending := by decide
  dropped := by decide

section
variable {g : Ring} (h : g.Bounded)
include h

/-- An append takes the pending-drop count into its record, and a drop saturates the count (R126, R128). -/
theorem Ring.Bounded.take (r : Record) : (g.take r).Bounded := by
  unfold Ring.take
  split
  next hroom =>
    refine ⟨by simpa using hroom, h.mark, Nat.zero_le _, fun r' hr' => ?_⟩
    rcases List.mem_append.1 hr' with hmem | hnew
    · exact h.dropped r' hmem
    · rw [List.mem_singleton.1 hnew]
      exact h.pending
  next => exact ⟨h.length, h.mark, Nat.min_le_left _ _, h.dropped⟩

/-- A read takes records away (R130). -/
theorem Ring.Bounded.drop (n : Nat) : Ring.Bounded { g with records := g.records.drop n } where
  length := (List.drop_sublist n _).length_le.trans h.length
  mark := h.mark
  pending := h.pending
  dropped r hr := h.dropped r (List.mem_of_mem_drop hr)

/-- RING CONFIGURE takes a mark to 31 (R132). -/
theorem Ring.Bounded.configure {mark : Nat} (hmark : mark ≤ 31) (d f : Bool) :
    Ring.Bounded { g with mark := mark, selDiscipline := d, selFault := f } := ⟨h.length, hmark, h.pending, h.dropped⟩

end

/-! ## Postings and occurrences -/

/-- From `s` to `t` the rings stay within their bounds. -/
def RingsKept (s t : State) : Prop := RingsBounded s → RingsBounded t

theorem RingsKept.of_rings {s t : State} (h : t.rings = s.rings) : RingsKept s t := fun hs => by
  unfold RingsBounded
  rwa [h]

theorem RingsKept.refl (s : State) : RingsKept s s := id

theorem RingsKept.trans {s t u : State} (h : RingsKept s t) (k : RingsKept t u) : RingsKept s u := k ∘ h

/-- A change of one ring that keeps it within its bounds. -/
theorem RingsKept.of_set {s t : State} {p : Port} {g : Ring} (h : t.rings = s.rings.set p g)
    (hg : (s.rings.get p).Bounded → g.Bounded) : RingsKept s t := by
  intro hs
  rw [ringsBounded_iff] at hs ⊢
  intro q
  rw [h, Tab.get_set]
  split
  · exact hg (hs p)
  · exact hs q

theorem ringPut_ringsKept (p : Port) (r : Record) (s : State) : RingsKept s (ringPut p r s).1 :=
  .of_set (ringPut_rings p r s) fun h => h.take r

theorem ringPutAll_ringsKept (r : Record) (ps : List Port) (s : State) : RingsKept s (ringPutAll r ps s).1 := by
  induction ps generalizing s with
  | nil => exact .refl s
  | cons p ps ih => exact (ringPut_ringsKept p r s).trans (ih _)

theorem ringsKept_occurrenceKeeps : OccurrenceKeeps RingsKept where
  same h := .of_rings h.rings
  trans := .trans
  bump _ _ := .of_rings rfl
  logged k port ctx s := .of_rings (occurrenceLogged_rings k port ctx s)
  notify _ _ s := (ringPutAll_ringsKept _ _ s).trans (.of_rings (raiseClassAll_rings _ _ _))

theorem post_ringsKept (p : Port) (r : Record) (s : State) : RingsKept s (post p r s) := by
  unfold post
  dsimp only
  split
  · exact (ringPut_ringsKept p r s).trans (ringsKept_occurrenceKeeps.reportOverflows _ _)
  · exact ringPut_ringsKept p r s

theorem ringsKept_logKeeps : LogKeeps RingsKept where
  same h := .of_rings h.rings
  trans := .trans
  raise _ _ _ := .of_rings rfl
  occur := ringsKept_occurrenceKeeps.occur
  post := post_ringsKept
  postAll r ps s := (ringPutAll_ringsKept r ps s).trans (ringsKept_occurrenceKeeps.reportOverflows _ _)

/-! ## The requests of the rings, the notification unit and the fault log -/

theorem eventRead_ringsKept (p : Port) (args : List Byte) (s : State) : RingsKept s (eventRead p args s).state := by
  unfold eventRead
  dsimp only
  repeat' split
  · exact .refl s
  · exact .refl s
  · exact .of_set rfl fun h => h.drop _

theorem ringConfigure_ringsKept (p : Port) (args : List Byte) (s : State) : RingsKept s (ringConfigure p args s).state := by
  unfold ringConfigure ok
  dsimp only
  split
  next => exact .refl s
  next =>
    split
    next => exact .refl s
    next hrange =>
      have hmark : fld args 0 1 ≤ 31 := by
        rw [not_or] at hrange
        omega
      split <;> exact .of_set rfl fun h => h.configure hmark _ _

theorem vectorConfigure_rings (p : Port) (args : List Byte) (s : State) : (vectorConfigure p args s).state.rings = s.rings := by
  unfold vectorConfigure
  repeat' split
  all_goals rfl

theorem vectorAck_rings (p : Port) (args : List Byte) (s : State) : (vectorAck p args s).state.rings = s.rings := by
  unfold vectorAck
  dsimp only
  repeat' split
  all_goals rfl

theorem notifyControl_rings (p : Port) (args : List Byte) (s : State) : (notifyControl p args s).state.rings = s.rings := by
  unfold notifyControl
  repeat' split
  all_goals rfl

theorem faultClear_rings (p : Port) (args : List Byte) (s : State) : (faultClear p args s).state.rings = s.rings := by
  unfold faultClear
  repeat' split
  all_goals rfl

theorem faultConfigure_rings (p : Port) (args : List Byte) (s : State) : (faultConfigure p args s).state.rings = s.rings := by
  unfold faultConfigure
  repeat' split
  all_goals rfl

theorem faultRecordClear_rings (p : Port) (args : List Byte) (s : State) : (faultRecordClear p args s).state.rings = s.rings := by
  unfold faultRecordClear
  repeat' split
  all_goals rfl

/-! ## Resets, the supply and the load -/

theorem RingsBounded_of_reset {t : State} (h : t.rings = .fill 4 .reset) : RingsBounded t :=
  ringsBounded_iff.2 fun p => by
    rw [h, Tab.get_fill]
    exact Ring.reset_bounded

theorem powerLoss_ringsKept (s : State) : RingsKept s (powerLoss s) := by
  unfold powerLoss
  split
  · exact fun _ => RingsBounded_of_reset rfl
  · exact .refl s

theorem resetnFall_ringsKept (s : State) : RingsKept s (resetnFall s) := by
  unfold resetnFall
  dsimp only
  repeat' split
  · exact .refl s
  · exact fun _ => RingsBounded_of_reset rfl
  · exact .of_rings rfl

theorem portResetOf_ringsKept (p : Port) (s : State) : RingsKept s (portResetOf p s) :=
  .of_set rfl fun _ => Ring.reset_bounded

theorem prstnFall_ringsKept (p : Port) (s : State) : RingsKept s (prstnFall p s) := by
  have hpull : RingsKept s (pullPrstn p s) := .of_rings rfl
  unfold prstnFall
  dsimp only
  repeat' split
  · exact .refl s
  · exact hpull.trans (portResetOf_ringsKept p _)
  · exact hpull

theorem portReset_ringsKept {p : Port} {args : List Byte} {s t : State} (h : exec (.portReset p args) s = .next t) :
    RingsKept s t := by
  cases h
  repeat' split
  · exact ringsKept_logKeeps.request (.refl s)
  · exact portResetOf_ringsKept p s
  · exact .of_rings rfl

theorem hubReset_ringsKept {p : Port} {args : List Byte} {s t : State} (h : exec (.hubReset p args) s = .next t) :
    RingsKept s t := by
  cases h
  repeat' split
  · exact ringsKept_logKeeps.request (.refl s)
  · exact fun _ => RingsBounded_of_reset rfl
  · exact .of_rings rfl

/-- A load leaves the rings; STORE_INVALID may post to them (R167, R176). -/
theorem settingsLoad_ringsKept (levels : BitVec 24) (begun : BitVec 4) (s : State) : RingsKept s (settingsLoad levels begun s) := by
  unfold settingsLoad
  repeat' split
  · exact .refl s
  · exact .of_rings rfl
  · exact (RingsKept.of_rings rfl).trans (ringsKept_logKeeps.occur _ _ _ (putSettings _ _ _ _ _ s))
  · exact .refl s

/-! ## Every command -/

/-- The commands that write the log themselves keep the bounds. -/
theorem exec_ringsKept_of_writes {c : Instr} {s t : State} (h : exec c s = .next t) (hc : writesLog c = true) :
    RingsKept s t := by
  unfold writesLog at hc
  split at hc
  · cases h; exact fun _ => RingsBounded_of_reset rfl
  · cases h; exact powerLoss_ringsKept s
  · cases h; exact resetnFall_ringsKept s
  · cases h; exact prstnFall_ringsKept _ s
  · exact portReset_ringsKept h
  · exact hubReset_ringsKept h
  · cases h; exact settingsLoad_ringsKept _ _ s
  · cases h; exact ringsKept_logKeeps.request (eventRead_ringsKept _ _ s)
  · cases h; exact ringsKept_logKeeps.request (ringConfigure_ringsKept _ _ s)
  · cases h; exact ringsKept_logKeeps.request (.of_rings (vectorConfigure_rings _ _ s))
  · cases h; exact ringsKept_logKeeps.request (.of_rings (vectorAck_rings _ _ s))
  · cases h; exact ringsKept_logKeeps.request (.of_rings (notifyControl_rings _ _ s))
  · cases h; exact ringsKept_logKeeps.request (.of_rings (faultClear_rings _ _ s))
  · cases h; exact ringsKept_logKeeps.request (.of_rings (faultConfigure_rings _ _ s))
  · cases h; exact ringsKept_logKeeps.request (.of_rings (faultRecordClear_rings _ _ s))
  · cases hc

theorem exec_keeps_ringsBounded {c : Instr} {s t : State} (h : exec c s = .next t) : RingsBounded s → RingsBounded t := by
  cases hc : writesLog c with
  | true => exact exec_ringsKept_of_writes h hc
  | false => exact ringsKept_logKeeps.exec h hc

/-- Settles O48: `exec_keeps_ringsBounded` for the command at the front of the queue. -/
theorem everyStepKeepsRingsBounded : Obligations.EveryStepKeepsRingsBounded := fun _ _ hs h =>
  step_keeps (P := RingsBounded) (fun _ _ h => h) exec_keeps_ringsBounded hs h

end Sys2Proof.Machine
end

section
/-! SUPPORT. One posting to one ring: the append, the drop, and the RING_OVERFLOW occurrences that a first drop brings, in an order
that stays open (R126 to R128, R158). -/

namespace Sys2Proof.Machine

open Sys2Proof.Safety

/-! ## Free orders -/

theorem insertAt_perm {α : Type} (x : α) (k : Nat) (l : List α) : (insertAt x k l).Perm (x :: l) := by
  induction k, l using insertAt.induct with
  | case1 l => exact .refl _
  | case2 k => exact .refl _
  | case3 k y l ih => exact (ih.cons y).trans (.swap x y l)

theorem permute_perm {α : Type} (k : Nat) (l : List α) : (permute k l).Perm l := by
  induction l generalizing k with
  | nil => exact .refl _
  | cons x l ih => exact (insertAt_perm x _ _).trans ((ih _).cons x)

/-- A free order of a list has the list's members, and drawing it changes the counter of the draws alone. -/
theorem freeOrder_perm (l : List Port) (s : State) :
    (freeOrder l s).1.Perm l ∧ ∃ draws, (freeOrder l s).2 = { s with choices := draws } := by
  unfold freeOrder
  split
  · exact ⟨permute_perm _ _, _, rfl⟩
  · exact ⟨.refl _, s.choices, rfl⟩

/-! ## The ring's own part -/

section
variable {p : Port} {r : Record} {s : State}

theorem ringPut_choices : (ringPut p r s).1.choices = s.choices := by
  unfold ringPut
  dsimp only
  split <;> split <;> rfl

theorem ringPut_first : (ringPut p r s).2 = (s.rings.get p).beginsEpisode := by
  unfold ringPut
  dsimp only
  cases (s.rings.get p).beginsEpisode <;> rfl

theorem Ring.beginsEpisode_iff {g : Ring} : g.beginsEpisode = true ↔ 32 ≤ g.records.length ∧ g.pendingDrops = 0 := by
  simp [Ring.beginsEpisode]

theorem Ring.take_of_room {g : Ring} (h : g.records.length < 32) (r : Record) :
    g.take r = { g with records := g.records ++ [{ r with dropped := g.pendingDrops }], pendingDrops := 0 } := by
  rw [Ring.take, if_pos h]

theorem Ring.take_of_full {g : Ring} (h : 32 ≤ g.records.length) (r : Record) :
    g.take r = { g with pendingDrops := bumped g.pendingDrops } := by
  rw [Ring.take, if_neg (by omega)]
  rfl

/-- A dropped record raises RING_OVERFLOW's class where it is the first of its episode, and no other (R128). -/
theorem ringPut_vectors_of_full (h : 32 ≤ (s.rings.get p).records.length) :
    (ringPut p r s).1.vectors =
      if (s.rings.get p).pendingDrops = 0 then (raiseClass p .ringOverflow s).vectors else s.vectors := by
  have hcross : (s.rings.get p).crosses = false := by
    simp [Ring.crosses, h]
  unfold ringPut
  dsimp only
  simp only [hcross, Bool.false_eq_true, if_false]
  by_cases hdrops : (s.rings.get p).pendingDrops = 0
  · rw [if_pos (Ring.beginsEpisode_iff.2 ⟨h, hdrops⟩), if_pos hdrops]
    rfl
  · rw [if_neg fun hbegins => hdrops (Ring.beginsEpisode_iff.1 hbegins).2, if_neg hdrops]

/-- A ring that has dropped a record begins no episode until it appends one (R128). -/
theorem ringPut_not_begins_of_full (h : 32 ≤ (s.rings.get p).records.length) :
    ((ringPut p r s).1.rings.get p).beginsEpisode = false := by
  rw [ringPut_rings, Tab.get_set_self, Ring.take_of_full h]
  refine Bool.eq_false_of_not_eq_true fun hbegins => ?_
  exact bumped_ne_zero _ (Ring.beginsEpisode_iff.1 hbegins).2

/-! ## Whose episodes an occurrence begins -/

theorem ringPutAll_drops (p : Port) (r : Record) (ps : List Port) (s : State) : (ringPutAll r (p :: ps) s).2 =
    if (ringPut p r s).2 then p :: (ringPutAll r ps (ringPut p r s).1).2 else (ringPutAll r ps (ringPut p r s).1).2 := rfl

theorem notifyOccurrence_drops (k : FaultKind) (sev : Severity) (s : State) :
    (notifyOccurrence k sev s).2 = (ringPutAll (plainRecord s (.fault k sev)) (faultSelectors s) s).2 := by
  dsimp only [notifyOccurrence]

/-- A posting to distinct rings begins an episode in those that drop their first record (R128). -/
theorem mem_ringPutAll_drops {q : Port} {ps : List Port} (hps : ps.Nodup) :
    q ∈ (ringPutAll r ps s).2 ↔ q ∈ ps ∧ (s.rings.get q).beginsEpisode = true := by
  induction ps generalizing s with
  | nil => simp [ringPutAll]
  | cons p ps ih =>
    obtain ⟨hp, hrestNodup⟩ := List.nodup_cons.1 hps
    have hrest := ih (s := (ringPut p r s).1) hrestNodup
    rw [ringPutAll_drops, ringPut_first]
    generalize (ringPutAll r ps (ringPut p r s).1).2 = drops at hrest ⊢
    by_cases hq : q = p
    · subst hq
      have hnot : q ∉ drops := fun hmem => hp (hrest.1 hmem).1
      cases (s.rings.get q).beginsEpisode <;> simp [hnot]
    · rw [ringPut_rings, Tab.get_set_ne _ _ (Ne.symm hq)] at hrest
      cases (s.rings.get p).beginsEpisode <;> simp [hq, hrest]

/-- An occurrence begins an episode only in a ring that drops its first record (R128, R156). -/
theorem begins_of_mem_occurOne {k : FaultKind} {port : Option Port} {ctx : FaultContext} {q : Port}
    (h : q ∈ (occurOne k port ctx s).2) : (s.rings.get q).beginsEpisode = true := by
  cases hmasked : (s.faults.cells.get k.idx).masked with
  | true =>
    rw [occurOne_of_masked hmasked] at h
    cases h
  | false =>
    by_cases hcount : (s.faults.cells.get k.idx).count = 0
    · rw [(occurOne_of_first hmasked hcount port ctx).2, notifyOccurrence_drops] at h
      have hbegins := ((mem_ringPutAll_drops (faultSelectors_nodup _)).1 h).2
      rwa [occurrenceLogged_rings] at hbegins
    · rw [(occurOne_of_counted hmasked hcount port ctx).2] at h
      cases h

/-! ## What a first drop brings -/

theorem post_of_not_first (h : (ringPut p r s).2 = false) : post p r s = (ringPut p r s).1 := by
  unfold post
  dsimp only
  rw [h]
  rfl

/-- The occurrence of a first drop, and then those of the other episodes that it begins, in a free order (R128, R158). -/
theorem post_of_first (h : (ringPut p r s).2 = true) {u : State} {others : List Port}
    (hone : occurOne .ringOverflow (some p) .none (ringPut p r s).1 = (u, others)) :
    post p r s = (occurOverflows (freeOrder others u).1 (freeOrder others u).2).1 := by
  unfold post
  dsimp only
  rw [if_pos h]
  simp only [reportOverflows, freeOrder, occurOverflows, hone, List.append_nil]

/-- Further occurrences do not take a count below what it has reached (R154). -/
theorem le_countOf_occurOverflows {n : Nat} (hn : n ≤ 255) (ps : List Port) (h : n ≤ countOf s .ringOverflow) :
    n ≤ countOf (occurOverflows ps s).1 .ringOverflow := by
  induction ps generalizing s with
  | nil => exact h
  | cons p ps ih =>
    refine ih (s := (occurOne .ringOverflow (some p) .none s).1) ?_
    rw [occurOne_count, if_pos rfl, bumped]
    omega

end

/-- Settles O46: `Ring.take` by the room in the ring, the raise of each case, and `post_of_first` for the occurrences. -/
theorem ringAppendsOrDrops : Obligations.RingAppendsOrDrops := by
  intro p r s t first hput
  obtain ⟨rfl, rfl⟩ : (ringPut p r s).1 = t ∧ (ringPut p r s).2 = first := by simp [hput]
  refine ⟨ringPut_logOnly p r s, ringPut_faults p r s, ringPut_choices, ringPut_sched p r s, fun q hq => ?others,
    fun hroom => ⟨(ringPut_append hroom r).2, ?appended, ?mark⟩, fun hfull => ⟨?dropped, ?first, ringPut_vectors_of_full hfull⟩,
    post_of_not_first, fun hfirst u others hone => ?occurrence⟩
  case others => rw [ringPut_rings, Tab.get_set_ne _ _ (Ne.symm hq)]
  case appended => rw [ringPut_rings, Tab.get_set_self, Ring.take_of_room hroom]
  case mark => rw [ringPut_vectors_of_room hroom, apply_ite State.vectors]
  case dropped => rw [ringPut_rings, Tab.get_set_self, Ring.take_of_full hfull]
  case first => rw [ringPut_first, Ring.beginsEpisode_iff, and_iff_right hfull]
  case occurrence =>
    have hpost := post_of_first hfirst hone
    obtain ⟨hperm, draws, hdraws⟩ := freeOrder_perm others u
    rw [hdraws] at hpost
    have hfull : 32 ≤ (s.rings.get p).records.length := (Ring.beginsEpisode_iff.1 (ringPut_first.symm.trans hfirst)).1
    have hu : u = (occurOne .ringOverflow (some p) .none (ringPut p r s).1).1 := by rw [hone]
    have hothers : others = (occurOne .ringOverflow (some p) .none (ringPut p r s).1).2 := by rw [hone]
    refine ⟨post_logOnly p r s, fun hnone => ?alone, fun hmem => ?self, ⟨_, draws, hperm, hpost⟩, ?count,
      fun hempty hunmasked => ?capture⟩
    case alone =>
      subst hnone
      exact post_of_first hfirst hone
    case self =>
      rw [hothers] at hmem
      exact Bool.false_ne_true ((ringPut_not_begins_of_full hfull).symm.trans (begins_of_mem_occurOne hmem))
    case count =>
      rw [hpost]
      refine le_countOf_occurOverflows (Nat.min_le_left _ _) _ ?_
      change _ ≤ countOf u .ringOverflow
      rw [hu, occurOne_count, if_pos rfl, countOf_of_faults (ringPut_faults p r s)]
      exact Nat.le_refl _
    case capture =>
      have htime := (ringPut_logOnly p r s).time
      have hcaptured : u.faults.capture = some ⟨.ringOverflow, s.time.ht, s.time.epoch, some p, .none⟩ := by
        rw [hu, occurOne_faults_of_unmasked (by rwa [ringPut_faults]), occurrenceLogged_captures (by rwa [ringPut_faults]), htime]
      rw [hpost]
      exact captureKept_occurrenceKeeps.occurOverflows _ _ _ hcaptured

end Sys2Proof.Machine
end

section
/-! SUPPORT. EVENT READ and RING CONFIGURE: the bytes of the records that a read takes (R130, R204), and the mark, the selection and
the mark test of a configuration (R132). -/

namespace Sys2Proof.Machine

open Sys2Proof.Safety

/-! ## The bytes of a record -/

theorem beN_two_zero : beN 2 0 = [0, 0] := by decide

theorem beN_four_zero : beN 4 0 = [0, 0, 0, 0] := by decide

theorem recordBytes_eq_layout (behind : Nat) (r : Record) : recordBytes behind r = recordLayout behind r := by
  have hflags : bitAt 0 r.late + bitAt 1 r.locked = (if r.late then 1 else 0) + (if r.locked then 2 else 0) := rfl
  unfold recordBytes recordLayout
  dsimp only
  rw [hflags]
  cases r.body with
  | capture k ed =>
    simp only [RecordBody.fields, beN_two_zero, beN_four_zero]
    cases ed <;> rfl
  | fired tag slot phase lateness skipped remaining => cases phase <;> rfl
  | cancelled tag slot reason =>
    simp only [RecordBody.fields, beN_two_zero, beN_four_zero]
    cases reason <;> rfl
  | claimLost pin => cases pin <;> simp only [RecordBody.fields, beN_two_zero, beN_four_zero]
  | discipline old new e =>
    simp only [RecordBody.fields, beN_two_zero]
    cases old <;> cases new <;> rfl
  | fault kind severity =>
    simp only [RecordBody.fields, beN_two_zero, beN_four_zero]
    cases severity <;> rfl
  | storeDone done => simp only [RecordBody.fields, beN_two_zero, beN_four_zero]

theorem RecordBody.length_fields_d (b : RecordBody) : b.fields.d.length = 4 := by
  unfold fields
  split <;> simp

theorem length_recordBytes (behind : Nat) (r : Record) : (recordBytes behind r).length = 24 := by
  simp [recordBytes, RecordBody.length_fields_d]

/-! ## The bytes of a read -/

theorem length_recordsBytes (left : Nat) (rs : List Record) : (recordsBytes left rs).length = 24 * rs.length := by
  induction rs with
  | nil => rfl
  | cons r rs ih =>
    rw [recordsBytes, List.length_append, length_recordBytes, ih, List.length_cons]
    omega

/-- The records in front leave behind them those that follow in the result as well. -/
theorem recordsBytes_append (left : Nat) (xs ys : List Record) :
    recordsBytes left (xs ++ ys) = recordsBytes (ys.length + left) xs ++ recordsBytes left ys := by
  induction xs with
  | nil => rfl
  | cons x xs ih =>
    rw [List.cons_append, recordsBytes, recordsBytes, ih, List.length_append, Nat.add_assoc, List.append_assoc]

/-- Each record's 24 bytes stand at its place, with the number of the records behind it (R204). -/
theorem recordsBytes_at (left : Nat) (before : List Record) (r : Record) (after : List Record) :
    ((recordsBytes left (before ++ r :: after)).drop (24 * before.length)).take 24 = recordLayout (after.length + left) r := by
  rw [recordsBytes_append, List.drop_left' (length_recordsBytes _ _), recordsBytes, List.take_left' (length_recordBytes _ _),
    recordBytes_eq_layout]

/-! ## EVENT READ -/

section
variable (p : Port) (s : State)

theorem eventRead_of_count {n : Nat} (hlo : 1 ≤ n) (hhi : n ≤ 4) :
    eventRead p [b1 n] s = ok { s with rings := s.rings.set p { s.rings.get p with records := (s.rings.get p).records.drop n } }
      (recordsBytes ((s.rings.get p).records.drop n).length ((s.rings.get p).records.take n)) := by
  have hn : fld [b1 n] 0 1 = n := by
    rw [fld_cons_zero, toNat_b1]
    omega
  have hlen : [b1 n].length = 1 := rfl
  rw [eventRead, hn, if_neg (not_not_intro hlen), if_neg (by omega)]

theorem eventRead_outOfRange {n : Nat} (hout : n = 0 ∨ 5 ≤ n) (hn : n ≤ 255) :
    eventRead p [b1 n] s = refuse s .badArgument := by
  have hfld : fld [b1 n] 0 1 = n := by
    rw [fld_cons_zero, toNat_b1]
    omega
  have hlen : [b1 n].length = 1 := rfl
  rw [eventRead, hfld, if_neg (not_not_intro hlen), if_pos (by omega)]

end

/-- Of a list's `n` first records, one with `behind` after it in the list has as many after it in the read and in the rest. -/
theorem take_drop_behind {n : Nat} {before : List Record} {r : Record} {behind : List Record} (h : before.length < n) :
    ∃ after, (before ++ r :: behind).take n = before ++ r :: after ∧
      after.length + ((before ++ r :: behind).drop n).length = behind.length := by
  obtain ⟨m, rfl⟩ : ∃ m, n = before.length + (m + 1) := ⟨n - before.length - 1, by omega⟩
  refine ⟨behind.take m, ?_, ?_⟩
  · rw [List.take_length_add_append, List.take_succ_cons]
  · rw [List.drop_length_add_append, List.drop_succ_cons, ← List.length_append, List.take_append_drop]

/-! ## RING CONFIGURE -/

theorem toNat_bBool_le (b : Bool) : (bBool b).toNat ≤ 1 := by
  cases b <;> decide

theorem toNat_bBool_eq_one (b : Bool) : decide ((bBool b).toNat = 1) = b := by
  cases b <;> decide

section
variable (p : Port) (s : State)

theorem ringConfigure_passing {mark : Nat} (hmark : mark ≤ 31) (d f : Bool) {u : State}
    (hu : u = { s with rings := s.rings.set p { s.rings.get p with mark := mark, selDiscipline := d, selFault := f } }) :
    ringConfigure p [b1 mark, bBool d, bBool f] s =
      ok (if mark < (s.rings.get p).records.length then raiseClass p .ringMark u else u)
        [b1 mark, bBool d, bBool f, b1 (s.rings.get p).records.length] := by
  have hfld : fld [b1 mark, bBool d, bBool f] 0 1 = mark := by
    rw [fld_cons_zero, toNat_b1]
    omega
  have hd : flagAt [b1 mark, bBool d, bBool f] 1 = d := by
    rw [flagAt, fld_cons_succ, fld_cons_zero, toNat_bBool_eq_one]
  have hf : flagAt [b1 mark, bBool d, bBool f] 2 = f := by
    rw [flagAt, fld_cons_succ, fld_cons_succ, fld_cons_zero, toNat_bBool_eq_one]
  have hflags : allBool [bBool d, bBool f] = true := by
    simp [allBool, toNat_bBool_le]
  have hlen : [b1 mark, bBool d, bBool f].length = 3 := rfl
  subst hu
  rw [ringConfigure, hfld, hd, hf, if_neg (not_not_intro hlen), if_neg]
  · rfl
  · rintro (hover | hcode)
    · omega
    · exact Bool.false_ne_true (hcode.symm.trans hflags)

theorem ringConfigure_outOfRange {mark d f : Byte} (hout : 32 ≤ mark.toNat ∨ 2 ≤ d.toNat ∨ 2 ≤ f.toNat) :
    ringConfigure p [mark, d, f] s = refuse s .badArgument := by
  have hflags : allBool [d, f] = false ↔ 2 ≤ d.toNat ∨ 2 ≤ f.toNat := by
    simp [allBool]
    omega
  have hlen : [mark, d, f].length = 3 := rfl
  rw [ringConfigure, fld_cons_zero, if_neg (not_not_intro hlen), if_pos]
  exact hout.imp_right hflags.2

end

/-- Settles O47: `eventRead_of_count` with `recordsBytes_at` for the bytes of its records, `ringConfigure_passing`, and the
refusals of both requests. -/
theorem ringRequestsReadAndConfigure : Obligations.RingRequestsReadAndConfigure := by
  intro p s htakes
  refine ⟨fun n hlo hhi => ?read, fun n hout hn => ?count,
    fun mark d f hmark => ⟨_, rfl, congrArg _ (request_carried htakes (ringConfigure_passing p s hmark d f rfl))⟩,
    fun mark d f hout => congrArg _ (request_refused htakes (ringConfigure_outOfRange p s hout))⟩
  case read =>
    refine ⟨_, congrArg _ (request_carried htakes (eventRead_of_count p s hlo hhi)), ?_, fun before r behind hrecords hn => ?_⟩
    · rw [length_recordsBytes, List.length_take]
    · obtain ⟨after, htake, hbehind⟩ := take_drop_behind (r := r) (behind := behind) hn
      rw [hrecords, htake, recordsBytes_at, hbehind]
  case count => exact congrArg _ (request_refused htakes (eventRead_outOfRange p s hout hn))

end Sys2Proof.Machine
end

section
/-! SUPPORT. The vectors of a port: what a raise, a changed mask, a changed function mask, an ACK and a reset make of them and of
NOTIFYn, and that each keeps the ties of R138 (R141, R143 to R146, R149). -/

namespace Sys2Proof.Machine

open Sys2Proof.Safety

/-! ## One vector -/

/-- The state of a vector that a raise has taken out of IDLE (R138). -/
def standing (masked functionMask : Bool) : VecState := if masked || functionMask then .pending else .active

theorem standing_ne_idle (masked functionMask : Bool) : standing masked functionMask ≠ .idle := by
  unfold standing
  split <;> simp

theorem standing_eq_active {masked functionMask : Bool} :
    standing masked functionMask = .active ↔ masked = false ∧ functionMask = false := by
  simp [standing]

theorem VecState.eq_of_active_iff {a b : VecState} (ha : a ≠ .idle) (hb : b ≠ .idle) (h : a = .active ↔ b = .active) : a = b := by
  cases a <;> cases b <;> simp_all

/-- `Safety.VectorTied` by its two cases. -/
inductive Vec.Tied (enable functionMask : Bool) (c : Vec) : Prop
  | idle (hstate : c.state = .idle) (hcount : c.count = 0)
  | raised (henable : enable = true) (hlow : 1 ≤ c.count) (hhigh : c.count ≤ 255) (hstate : c.state = standing c.masked functionMask)

theorem vectorTied_iff {n : NotifyUnit} {v : VecNo} : VectorTied n v ↔ (n.vecs.get v).Tied n.enable n.functionMask := by
  unfold VectorTied
  generalize n.vecs.get v = c
  constructor
  · rintro ⟨hidle, hcount, hactive, hdisabled⟩
    by_cases hstate : c.state = .idle
    · exact .idle hstate (hidle hstate)
    · obtain ⟨hlow, hhigh⟩ := hcount hstate
      have henable : n.enable = true := Bool.eq_true_of_not_eq_false fun h => hstate (hdisabled h)
      exact .raised henable hlow hhigh
        (VecState.eq_of_active_iff hstate (standing_ne_idle _ _) ((hactive hstate).trans standing_eq_active.symm))
  · rintro (⟨hstate, hcount⟩ | ⟨henable, hlow, hhigh, hstate⟩)
    · simp [hstate, hcount]
    · have hne : c.state ≠ .idle := hstate ▸ standing_ne_idle _ _
      refine ⟨fun h => absurd h hne, fun _ => ⟨hlow, hhigh⟩, fun _ => ?_, fun h => ?_⟩
      · rw [hstate, standing_eq_active]
      · rw [henable] at h
        cases h

/-- A vector made IDLE (R145, R146). -/
theorem Vec.tied_idle (enable functionMask masked : Bool) : Vec.Tied enable functionMask ⟨.idle, 0, masked⟩ := .idle rfl rfl

/-- What a raise makes of a vector whose port has its notify enable on (the table of R141). -/
def Vec.raise (functionMask : Bool) (c : Vec) : Vec :=
  if c.state = .idle then { c with state := standing c.masked functionMask, count := 1 } else { c with count := bumped c.count }

theorem Vec.remask_masked (m functionMask : Bool) (c : Vec) : (c.remask m functionMask).masked = m := rfl

theorem Vec.remask_count (m functionMask : Bool) (c : Vec) : (c.remask m functionMask).count = c.count := rfl

/-- A changed mask moves a vector between PENDING and ACTIVE (R144). -/
theorem Vec.remask_state (m functionMask : Bool) (c : Vec) : (c.remask m functionMask).state =
    if c.masked = m then c.state
    else match c.state with
      | .idle => .idle
      | .active => if m = true then .pending else .active
      | .pending => if m = false ∧ functionMask = false then .active else .pending := by
  unfold remask
  dsimp only
  cases c.state <;> cases m <;> cases functionMask <;> simp

theorem Vec.refunction_masked (before after : Bool) (c : Vec) : (c.refunction before after).masked = c.masked := by
  unfold refunction
  split_ifs <;> rfl

theorem Vec.refunction_count (before after : Bool) (c : Vec) : (c.refunction before after).count = c.count := by
  unfold refunction
  split_ifs <;> rfl

/-- A changed function mask moves a vector between PENDING and ACTIVE, but for one that its own mask holds back (R145). -/
theorem Vec.refunction_state (before after : Bool) (c : Vec) : (c.refunction before after).state =
    if before = after then c.state
    else match c.state with
      | .idle => .idle
      | .active => if after = true then .pending else .active
      | .pending => if after = false ∧ c.masked = false then .active else .pending := by
  unfold refunction
  split
  · rfl
  · cases hstate : c.state <;> cases after <;> cases c.masked <;> simp [hstate]

section
variable {enable functionMask : Bool} {c : Vec} (h : c.Tied enable functionMask)
include h

/-- A vector tied under some notify enable stays so where the enable is on. -/
theorem Vec.Tied.enabled : c.Tied true functionMask := by
  cases h with
  | idle hstate hcount => exact .idle hstate hcount
  | raised _ hlow hhigh hstate => exact .raised rfl hlow hhigh hstate

theorem Vec.Tied.raise (henable : enable = true) : (c.raise functionMask).Tied enable functionMask := by
  unfold Vec.raise
  cases h with
  | idle hstate hcount =>
    rw [if_pos hstate]
    exact .raised henable (Nat.le_refl 1) (Nat.le_add_left 1 254) rfl
  | raised _ hlow hhigh hstate =>
    rw [if_neg (hstate ▸ standing_ne_idle _ _)]
    refine .raised henable ?_ (Nat.min_le_left _ _) hstate
    exact Nat.one_le_iff_ne_zero.2 (bumped_ne_zero _)

theorem Vec.Tied.remask (m : Bool) : (c.remask m functionMask).Tied enable functionMask := by
  cases h with
  | idle hstate hcount => exact .idle (by simp [remask_state, hstate]) hcount
  | raised henable hlow hhigh hstate =>
    refine .raised henable hlow hhigh ?_
    rw [remask_state, remask_masked, hstate]
    cases c.masked <;> cases m <;> cases functionMask <;> rfl

theorem Vec.Tied.refunction (after : Bool) : (c.refunction functionMask after).Tied enable after := by
  cases h with
  | idle hstate hcount => exact .idle (by simp [refunction_state, hstate]) ((refunction_count _ _ _).trans hcount)
  | raised henable hlow hhigh hstate =>
    have hcount := refunction_count functionMask after c
    refine .raised henable (hlow.trans_eq hcount.symm) (hcount.trans_le hhigh) ?_
    rw [refunction_state, refunction_masked, hstate]
    cases c.masked <;> cases functionMask <;> cases after <;> rfl

end

/-! ## One port -/

theorem NotifyUnit.anyActive_iff {n : NotifyUnit} : n.anyActive = true ↔ ∃ v, (n.vecs.get v).state = .active := by
  have hmem : ∀ v, v ∈ allVecs := by decide
  simp [anyActive, hmem]

theorem NotifyUnit.setLine_lineTied (n : NotifyUnit) : NotifyLineTied n.setLine := anyActive_iff

/-- The lines and the vectors of one port stand as R138 and R143 tie them. -/
structure NotifyUnit.Tied (n : NotifyUnit) : Prop where
  line : NotifyLineTied n
  vecs : ∀ v, (n.vecs.get v).Tied n.enable n.functionMask

theorem vectorsTied_iff {s : State} : VectorsTied s ↔ ∀ p, (s.vectors.get p).Tied :=
  forall_congr' fun _ => ⟨fun ⟨hline, hvecs⟩ => ⟨hline, fun v => vectorTied_iff.1 (hvecs v)⟩,
    fun ⟨hline, hvecs⟩ => ⟨hline, fun v => vectorTied_iff.2 (hvecs v)⟩⟩

theorem NotifyUnit.setLine_tied {n : NotifyUnit} (h : ∀ v, (n.vecs.get v).Tied n.enable n.functionMask) : n.setLine.Tied :=
  ⟨n.setLine_lineTied, h⟩

theorem NotifyUnit.reset_tied : NotifyUnit.reset.Tied where
  line := by decide
  vecs v := by
    rw [NotifyUnit.reset, Tab.get_fill]
    exact Vec.tied_idle _ _ _

theorem NotifyUnit.raise_of_disabled {n : NotifyUnit} (h : n.enable = false) (v : VecNo) : n.raise v = n := by
  simp [NotifyUnit.raise, h]

theorem NotifyUnit.raise_eq_setLine {n : NotifyUnit} (h : n.enable = true) (v : VecNo) :
    n.raise v = setLine { n with vecs := n.vecs.upd v (Vec.raise n.functionMask) } := by
  rw [NotifyUnit.raise, if_pos h]
  rfl

section
variable {n : NotifyUnit} (h : n.Tied)
include h

theorem NotifyUnit.Tied.raise (v : VecNo) : (n.raise v).Tied := by
  cases henable : n.enable with
  | false => rwa [raise_of_disabled henable]
  | true =>
    rw [raise_eq_setLine henable]
    refine setLine_tied fun w => ?_
    rw [Tab.get_upd]
    split
    · exact (h.vecs v).raise henable
    · exact h.vecs w

theorem NotifyUnit.Tied.ack (v : VecNo) : (n.ack v).Tied := by
  refine setLine_tied fun w => ?_
  rw [Tab.get_upd]
  split
  · exact Vec.tied_idle _ _ _
  · exact h.vecs w

theorem NotifyUnit.Tied.configure (masks : VecNo → Bool) (classMap : Tab 6 VecNo) : (n.configure masks classMap).Tied := by
  refine setLine_tied fun v => ?_
  rw [Tab.get_build]
  exact (h.vecs v).remask (masks v)

theorem NotifyUnit.Tied.control (enable functionMask : Bool) : (n.control enable functionMask).Tied := by
  refine setLine_tied fun v => ?_
  cases enable with
  | false =>
    rw [if_neg Bool.false_ne_true, Tab.get_map]
    exact Vec.tied_idle _ _ _
  | true =>
    rw [if_pos rfl, Tab.get_map]
    exact ((h.vecs v).refunction functionMask).enabled

end
/-! ## A raise by its table -/

theorem NotifyUnit.raise_vec {n : NotifyUnit} (h : n.enable = true) (v : VecNo) :
    (n.raise v).vecs.get v = (n.vecs.get v).raise n.functionMask := by
  rw [raise_eq_setLine h]
  exact Tab.get_upd_self _ _ _

theorem NotifyUnit.raise_otherVec {n : NotifyUnit} {u v : VecNo} (huv : u ≠ v) : (n.raise v).vecs.get u = n.vecs.get u := by
  cases h : n.enable with
  | false => rw [raise_of_disabled h]
  | true =>
    rw [raise_eq_setLine h]
    exact Tab.get_upd_ne _ _ huv.symm

theorem NotifyUnit.raise_functionMask (v : VecNo) (n : NotifyUnit) : (n.raise v).functionMask = n.functionMask := by
  cases h : n.enable with
  | false => rw [raise_of_disabled h]
  | true =>
    rw [raise_eq_setLine h]
    rfl

/-- Settles O49: `NotifyUnit.raise_eq_setLine`, and `Vec.raise` by its two cases. -/
theorem raiseFollowsTheTable : Obligations.RaiseFollowsTheTable := by
  intro v n
  obtain ⟨henable, hclassMap, -⟩ := NotifyUnit.raise_kept v n
  refine ⟨fun hoff => NotifyUnit.raise_of_disabled hoff v, fun hon =>
    ⟨henable.trans hon, NotifyUnit.raise_functionMask v n, hclassMap, fun u hu => NotifyUnit.raise_otherVec hu,
      fun hidle => ?idle, fun hraised => ?raised, ?line⟩⟩
  case idle =>
    rw [NotifyUnit.raise_vec hon, Vec.raise, if_pos hidle, standing]
    simp
  case raised => rw [NotifyUnit.raise_vec hon, Vec.raise, if_neg hraised]
  case line =>
    rw [NotifyUnit.raise_eq_setLine hon]
    exact NotifyUnit.setLine_lineTied _

end Sys2Proof.Machine
end

section
/-! SUPPORT. What every step keeps of the lines and the vectors: NOTIFYn and the ties of every vector, and FAULTn (R138, R143, R159). -/

namespace Sys2Proof.Machine

open Sys2Proof.Safety

/-! ## Raises, postings and occurrences on the vectors -/

/-- A relation between states that each entry raise keeps, and that looks at nothing but the vectors. -/
structure RaisesKeep (R : State → State → Prop) : Prop where
  same : ∀ {s t : State}, t.vectors = s.vectors → R s t
  trans : ∀ {s t u : State}, R s t → R t u → R s u
  raise : ∀ p v s, R s (raiseVec p v s)

section
variable {R : State → State → Prop} (hR : RaisesKeep R)
include hR

theorem RaisesKeep.raiseClassAll (c : RaiseClass) (ps : List Port) (s : State) : R s (raiseClassAll c ps s) := by
  induction ps generalizing s with
  | nil => exact hR.same rfl
  | cons p ps ih => exact hR.trans (hR.raise _ _ s) (ih _)

theorem RaisesKeep.ringPut (p : Port) (r : Record) (s : State) : R s (ringPut p r s).1 := by
  have hput : R s { s with rings := s.rings.set p ((s.rings.get p).take r) } := hR.same rfl
  unfold Machine.ringPut
  dsimp only
  split <;> split
  · exact hR.trans (hR.trans hput (hR.raise _ _ _)) (hR.raise _ _ _)
  · exact hR.trans hput (hR.raise _ _ _)
  · exact hR.trans hput (hR.raise _ _ _)
  · exact hput

theorem RaisesKeep.ringPutAll (r : Record) (ps : List Port) (s : State) : R s (ringPutAll r ps s).1 := by
  induction ps generalizing s with
  | nil => exact hR.same rfl
  | cons p ps ih => exact hR.trans (hR.ringPut p r s) (ih _)

theorem RaisesKeep.occurrenceKeeps : OccurrenceKeeps R where
  same h := hR.same h.vectors
  trans := hR.trans
  bump _ _ := hR.same rfl
  logged k port ctx s := hR.same (occurrenceLogged_vectors k port ctx s)
  notify _ _ s := hR.trans (hR.ringPutAll _ _ s) (hR.raiseClassAll _ _ _)

theorem RaisesKeep.post (p : Port) (r : Record) (s : State) : R s (post p r s) := by
  unfold Machine.post
  dsimp only
  split
  · exact hR.trans (hR.ringPut p r s) (hR.occurrenceKeeps.reportOverflows _ _)
  · exact hR.ringPut p r s

theorem RaisesKeep.logKeeps : LogKeeps R where
  same h := hR.same h.vectors
  trans := hR.trans
  raise := hR.raise
  occur := hR.occurrenceKeeps.occur
  post := hR.post
  postAll r ps s := hR.trans (hR.ringPutAll r ps s) (hR.occurrenceKeeps.reportOverflows _ _)

end

/-- From `s` to `t` the vectors and their lines stay tied. -/
def VectorsKept (s t : State) : Prop := VectorsTied s → VectorsTied t

theorem VectorsKept.of_vectors {s t : State} (h : t.vectors = s.vectors) : VectorsKept s t := fun hs => by
  unfold VectorsTied
  rwa [h]

/-- A change of one port's vectors that keeps them tied. -/
theorem VectorsKept.of_set {s t : State} {p : Port} {n : NotifyUnit} (h : t.vectors = s.vectors.set p n)
    (hn : (s.vectors.get p).Tied → n.Tied) : VectorsKept s t := by
  intro hs
  rw [vectorsTied_iff] at hs ⊢
  intro q
  rw [h, Tab.get_set]
  split
  · exact hn (hs p)
  · exact hs q

theorem vectorsKept_raisesKeep : RaisesKeep VectorsKept where
  same := .of_vectors
  trans h k := k ∘ h
  raise _ v _ := .of_set rfl fun h => h.raise v

/-! ## FAULTn -/

theorem FaultLog.majorStands_iff {l : FaultLog} : l.majorStands = true ↔
    ∃ k, (l.cells.get k).masked = false ∧ (l.cells.get k).severity = .major ∧ (l.cells.get k).count ≠ 0 := by
  simp [majorStands, mem_allKinds, and_assoc]

/-- A line set anew is tied (R159). -/
theorem FaultLineTied_of_setLine {l : FaultLog} {s : State} (h : s.faults = l.setLine) : FaultLineTied s := by
  unfold FaultLineTied
  rw [h]
  exact FaultLog.majorStands_iff

theorem FaultLineTied_of_reset {s : State} (h : s.faults = .reset) : FaultLineTied s := by
  unfold FaultLineTied
  rw [h]
  decide

/-- From `s` to `t` FAULTn stays tied. -/
def FaultLineKept (s t : State) : Prop := FaultLineTied s → FaultLineTied t

theorem FaultLineKept.of_faults {s t : State} (h : t.faults = s.faults) : FaultLineKept s t := fun hs => by
  unfold FaultLineTied
  rwa [h]

theorem FaultLineKept.trans {s t u : State} (h : FaultLineKept s t) (k : FaultLineKept t u) : FaultLineKept s u := k ∘ h

/-- A masked kind is counted without holding the line (R154, R159). -/
theorem bumpCount_faultLineKept {k : FaultKind} {s : State} (hmasked : (s.faults.cells.get k.idx).masked = true) :
    FaultLineKept s (bumpCount k s) := by
  intro hs
  refine hs.trans (exists_congr fun j => ?_)
  simp only [bumpCount, Tab.get_upd]
  split
  next hj =>
    subst hj
    simp [hmasked]
  next => rfl

theorem occurOne_faultLineKept (k : FaultKind) (port : Option Port) (ctx : FaultContext) (s : State) :
    FaultLineKept s (occurOne k port ctx s).1 := by
  cases hmasked : (s.faults.cells.get k.idx).masked with
  | true =>
    rw [occurOne_of_masked hmasked]
    exact bumpCount_faultLineKept hmasked
  | false => exact fun _ => FaultLineTied_of_setLine (occurOne_faults_of_unmasked hmasked port ctx)

theorem occurOverflows_faultLineKept (ps : List Port) (s : State) : FaultLineKept s (occurOverflows ps s).1 := by
  induction ps generalizing s with
  | nil => exact .of_faults rfl
  | cons p ps ih => exact (occurOne_faultLineKept _ _ _ s).trans (ih _)

theorem reportOverflows_faultLineKept (ps : List Port) (s : State) : FaultLineKept s (reportOverflows ps s) :=
  ((FaultLineKept.of_faults (freeOrder_faults ps s)).trans (occurOverflows_faultLineKept _ _)).trans
    ((FaultLineKept.of_faults (freeOrder_faults _ _)).trans (occurOverflows_faultLineKept _ _))

theorem post_faultLineKept (p : Port) (r : Record) (s : State) : FaultLineKept s (post p r s) := by
  have hput : FaultLineKept s (ringPut p r s).1 := .of_faults (ringPut_faults p r s)
  unfold post
  dsimp only
  split
  · exact hput.trans (reportOverflows_faultLineKept _ _)
  · exact hput

theorem faultLineKept_logKeeps : LogKeeps FaultLineKept where
  same h := .of_faults h.faults
  trans := .trans
  raise _ _ _ := .of_faults rfl
  occur k port ctx s := (occurOne_faultLineKept k port ctx s).trans (reportOverflows_faultLineKept _ _)
  post := post_faultLineKept
  postAll r ps s := (FaultLineKept.of_faults (ringPutAll_faults r ps s)).trans (reportOverflows_faultLineKept _ _)

/-! ## Both kinds of lines -/

/-- From `s` to `t` FAULTn, the NOTIFYn lines and the vectors stay tied. -/
structure LinesKept (s t : State) : Prop where
  fault : FaultLineKept s t
  vectors : VectorsKept s t

theorem LinesKept.of_sameLog {s t : State} (h : SameLog s t) : LinesKept s t := ⟨.of_faults h.faults, .of_vectors h.vectors⟩

theorem LinesKept.refl (s : State) : LinesKept s s := .of_sameLog (.refl s)

theorem LinesKept.trans {s t u : State} (h : LinesKept s t) (k : LinesKept t u) : LinesKept s u :=
  ⟨h.fault.trans k.fault, k.vectors ∘ h.vectors⟩

theorem linesKept_logKeeps : LogKeeps LinesKept where
  same := .of_sameLog
  trans := .trans
  raise p v s := ⟨faultLineKept_logKeeps.raise p v s, vectorsKept_raisesKeep.raise p v s⟩
  occur k port ctx s := ⟨faultLineKept_logKeeps.occur k port ctx s, vectorsKept_raisesKeep.logKeeps.occur k port ctx s⟩
  post p r s := ⟨faultLineKept_logKeeps.post p r s, vectorsKept_raisesKeep.logKeeps.post p r s⟩
  postAll r ps s := ⟨faultLineKept_logKeeps.postAll r ps s, vectorsKept_raisesKeep.logKeeps.postAll r ps s⟩

/-- A change of one port's vectors that keeps them tied. -/
theorem LinesKept.of_set {s t : State} {p : Port} {n : NotifyUnit} (hfaults : t.faults = s.faults)
    (h : t.vectors = s.vectors.set p n) (hn : (s.vectors.get p).Tied → n.Tied) : LinesKept s t :=
  ⟨.of_faults hfaults, .of_set h hn⟩

/-- A change of the fault log that sets FAULTn anew. -/
theorem LinesKept.of_setLine {s t : State} {l : FaultLog} (h : t.faults = l.setLine) (hvectors : t.vectors = s.vectors) :
    LinesKept s t := ⟨fun _ => FaultLineTied_of_setLine h, .of_vectors hvectors⟩

/-! ## The requests of the rings, the notification unit and the fault log -/

section
variable (p : Port) (args : List Byte) (s : State)

theorem eventRead_linesKept : LinesKept s (eventRead p args s).state := by
  unfold eventRead
  dsimp only
  repeat' split
  all_goals exact ⟨.of_faults rfl, .of_vectors rfl⟩

theorem ringConfigure_linesKept : LinesKept s (ringConfigure p args s).state := by
  have hset : ∀ g, LinesKept s { s with rings := s.rings.set p g } := fun _ => ⟨.of_faults rfl, .of_vectors rfl⟩
  unfold ringConfigure ok
  dsimp only
  repeat' split
  · exact .refl s
  · exact .refl s
  · exact (hset _).trans (linesKept_logKeeps.raiseClass _ _ _)
  · exact hset _

theorem vectorConfigure_linesKept : LinesKept s (vectorConfigure p args s).state := by
  unfold vectorConfigure
  repeat' split
  · exact .refl s
  · exact .refl s
  · exact .refl s
  · exact .of_set rfl rfl fun h => h.configure _ _

theorem vectorAck_linesKept : LinesKept s (vectorAck p args s).state := by
  unfold vectorAck
  dsimp only
  repeat' split
  · exact .refl s
  · exact .refl s
  · exact .refl s
  · exact .of_set rfl rfl fun h => h.ack _

theorem notifyControl_linesKept : LinesKept s (notifyControl p args s).state := by
  unfold notifyControl
  repeat' split
  · exact .refl s
  · exact .refl s
  · exact .of_set rfl rfl fun h => h.control _ _

theorem faultClear_linesKept : LinesKept s (faultClear p args s).state := by
  unfold faultClear
  repeat' split
  · exact .refl s
  · exact .refl s
  · exact .refl s
  · exact .of_setLine rfl rfl

theorem faultConfigure_linesKept : LinesKept s (faultConfigure p args s).state := by
  unfold faultConfigure
  repeat' split
  · exact .refl s
  · exact .refl s
  · exact .refl s
  · exact .of_setLine rfl rfl

/-- The capture record is no part of the tie (R163). -/
theorem faultRecordClear_linesKept : LinesKept s (faultRecordClear p args s).state := by
  unfold faultRecordClear
  repeat' split
  · exact .refl s
  · exact .refl s
  · exact ⟨id, .of_vectors rfl⟩

/-! ## Resets, the supply and the load -/

/-- A block reset of every port's vectors (R149 to R151). -/
theorem VectorsTied_of_reset {t : State} (h : t.vectors = .fill 4 .reset) : VectorsTied t :=
  vectorsTied_iff.2 fun p => by
    rw [h, Tab.get_fill]
    exact NotifyUnit.reset_tied

theorem powerOnValues_linesKept : LinesKept s (powerOnValues s) :=
  ⟨fun _ => FaultLineTied_of_reset rfl, fun _ => VectorsTied_of_reset rfl⟩

theorem hubResetAll_linesKept (byRequest : Bool) : LinesKept s (hubResetAll byRequest s) :=
  ⟨.of_faults rfl, fun _ => VectorsTied_of_reset rfl⟩

theorem portResetOf_linesKept : LinesKept s (portResetOf p s) := .of_set rfl rfl fun _ => NotifyUnit.reset_tied

theorem powerLoss_linesKept : LinesKept s (powerLoss s) := by
  unfold powerLoss
  split
  · exact (powerOnValues_linesKept s).trans (.of_sameLog ⟨rfl, rfl, rfl⟩)
  · exact .refl s

theorem resetnFall_linesKept : LinesKept s (resetnFall s) := by
  have hlow : LinesKept s { s with resetnLow := true } := .of_sameLog ⟨rfl, rfl, rfl⟩
  unfold resetnFall
  dsimp only
  repeat' split
  · exact .refl s
  · exact hlow.trans (hubResetAll_linesKept _ false)
  · exact hlow

theorem prstnFall_linesKept : LinesKept s (prstnFall p s) := by
  have hpull : LinesKept s (pullPrstn p s) := .of_sameLog ⟨rfl, rfl, rfl⟩
  unfold prstnFall
  dsimp only
  repeat' split
  · exact .refl s
  · exact hpull.trans (portResetOf_linesKept p _)
  · exact hpull

/-- A load after power-on sets FAULTn anew, and one after a hub reset leaves the fault log (R167). -/
theorem putSettings_linesKept (kind : LoadKind) (w : Settings) (valid : Bool) (levels : BitVec 24) (begun : BitVec 4) :
    LinesKept s (putSettings kind w valid levels begun s) := by
  cases kind with
  | powerOn => exact .of_setLine rfl rfl
  | hubReset atOnce => exact .of_sameLog ⟨rfl, rfl, rfl⟩

theorem settingsLoad_linesKept (levels : BitVec 24) (begun : BitVec 4) : LinesKept s (settingsLoad levels begun s) := by
  unfold settingsLoad
  repeat' split
  · exact .refl s
  · exact putSettings_linesKept s _ _ _ _ _
  · exact (putSettings_linesKept s _ _ _ _ _).trans (linesKept_logKeeps.occur _ _ _ _)
  · exact .refl s

end

section
variable {p : Port} {args : List Byte} {s t : State}

theorem portReset_linesKept (h : exec (.portReset p args) s = .next t) : LinesKept s t := by
  cases h
  repeat' split
  · exact linesKept_logKeeps.request (.refl s)
  · exact portResetOf_linesKept p s
  · exact .of_sameLog ⟨rfl, rfl, rfl⟩

theorem hubReset_linesKept (h : exec (.hubReset p args) s = .next t) : LinesKept s t := by
  cases h
  repeat' split
  · exact linesKept_logKeeps.request (.refl s)
  · exact hubResetAll_linesKept s true
  · exact .of_sameLog ⟨rfl, rfl, rfl⟩

end

/-! ## Every command -/

/-- The commands that write the log themselves keep the lines. -/
theorem exec_linesKept_of_writes {c : Instr} {s t : State} (h : exec c s = .next t) (hc : writesLog c = true) :
    LinesKept s t := by
  unfold writesLog at hc
  split at hc
  · cases h; exact powerOnValues_linesKept s
  · cases h; exact powerLoss_linesKept s
  · cases h; exact resetnFall_linesKept s
  · cases h; exact prstnFall_linesKept _ s
  · exact portReset_linesKept h
  · exact hubReset_linesKept h
  · cases h; exact settingsLoad_linesKept s _ _
  · cases h; exact linesKept_logKeeps.request (eventRead_linesKept _ _ s)
  · cases h; exact linesKept_logKeeps.request (ringConfigure_linesKept _ _ s)
  · cases h; exact linesKept_logKeeps.request (vectorConfigure_linesKept _ _ s)
  · cases h; exact linesKept_logKeeps.request (vectorAck_linesKept _ _ s)
  · cases h; exact linesKept_logKeeps.request (notifyControl_linesKept _ _ s)
  · cases h; exact linesKept_logKeeps.request (faultClear_linesKept _ _ s)
  · cases h; exact linesKept_logKeeps.request (faultConfigure_linesKept _ _ s)
  · cases h; exact linesKept_logKeeps.request (faultRecordClear_linesKept _ _ s)
  · cases hc

theorem exec_linesKept {c : Instr} {s t : State} (h : exec c s = .next t) : LinesKept s t := by
  cases hc : writesLog c with
  | true => exact exec_linesKept_of_writes h hc
  | false => exact linesKept_logKeeps.exec h hc

/-- Settles O51: `exec_linesKept` for the command at the front of the queue. -/
theorem everyStepKeepsTheLinesAndVectors : Obligations.EveryStepKeepsTheLinesAndVectors := fun _ _ hfault hvectors h =>
  step_keeps (P := fun s => FaultLineTied s ∧ VectorsTied s) (fun _ _ h => h)
    (fun hexec ⟨hline, htied⟩ => ⟨(exec_linesKept hexec).fault hline, (exec_linesKept hexec).vectors htied⟩) ⟨hfault, hvectors⟩ h

end Sys2Proof.Machine
end

section
/-! SUPPORT. VECTOR CONFIGURE, NOTIFY CONTROL, VECTOR ACK and VECTOR READ: the bytes that they read and write, what each does to the
vectors of its port, and its refusals by range (R143 to R147, R203). -/

namespace Sys2Proof.Machine

open Sys2Proof.Safety

/-! ## Single bytes of the arguments -/

theorem fld_eq_getElem {args : List Byte} {k : Nat} (h : k < args.length) : fld args k 1 = args[k].toNat := by
  rw [fld, List.drop_eq_getElem_cons h]
  exact be_singleton _

theorem flagAt_of_fld {args : List Byte} {k : Nat} {b : Bool} (h : fld args k 1 = (bBool b).toNat) : flagAt args k = b := by
  rw [flagAt, h, toNat_bBool_eq_one]

theorem allBool_map (f : VecNo → Bool) (vs : List VecNo) : allBool (vs.map fun v => bBool (f v)) = true := by
  simp [allBool, toNat_bBool_le]

/-- A byte of 2 or more among the first `n` is no yes/no byte (R201). -/
theorem allBool_take_of_fld {args : List Byte} {k n : Nat} (hk : k < args.length) (hn : k < n) (h : 2 ≤ fld args k 1) :
    allBool (args.take n) = false := by
  rw [fld_eq_getElem hk] at h
  refine List.all_eq_false.2 ⟨args[k], List.mem_take_iff_getElem.2 ⟨k, by omega, rfl⟩, ?_⟩
  rw [decide_eq_true_eq]
  omega

theorem Tab.set_get {n : Nat} {α : Type} (t : Tab n α) (i : Fin n) : t.set i (t.get i) = t := by
  refine Tab.ext_get fun j => ?_
  rw [Tab.get_set]
  split
  next h => rw [h]
  next => rfl

/-! ## VECTOR ACK -/

section
variable (p : Port) {s : State}

theorem vectorAck_of_vec (v : VecNo) : vectorAck p [b1 v.val] s =
    if ((s.vectors.get p).vecs.get v).state = .idle then
      ok s [b1 v.val, b1 ((s.vectors.get p).vecs.get v).state.code, 0]
    else ok { s with vectors := s.vectors.set p ((s.vectors.get p).ack v) }
      [b1 v.val, b1 ((s.vectors.get p).vecs.get v).state.code, b1 ((s.vectors.get p).vecs.get v).count] := by
  have hlen : [b1 v.val].length = 1 := rfl
  have hvec : vecOfCode (fld [b1 v.val] 0 1) = some v := by
    rw [fld_cons_zero, toNat_b1, Nat.mod_eq_of_lt (by omega), vecOfCode, dif_pos v.isLt]
  rw [vectorAck, if_neg (not_not_intro hlen), hvec]
  rfl

theorem vectorAck_outOfRange {v : Byte} (h : 8 ≤ v.toNat) : vectorAck p [v] s = refuse s .badArgument := by
  have hlen : [v].length = 1 := rfl
  have hvec : vecOfCode (fld [v] 0 1) = none := by
    rw [fld_cons_zero, vecOfCode, dif_neg (by omega)]
  rw [vectorAck, if_neg (not_not_intro hlen), hvec]

/-! ## NOTIFY CONTROL -/

theorem notifyControl_passing (enable mask : Bool) : notifyControl p [bBool enable, bBool mask] s =
    ok { s with vectors := s.vectors.set p ((s.vectors.get p).control enable mask) }
      [bBool enable, bBool mask, bBool ((s.vectors.get p).control enable mask).notifynLow] := by
  have hlen : [bBool enable, bBool mask].length = 2 := rfl
  have hflags : ¬allBool [bBool enable, bBool mask] = false := by
    simp [allBool, toNat_bBool_le]
  have henable : flagAt [bBool enable, bBool mask] 0 = enable := flagAt_of_fld (fld_cons_zero _ _)
  have hmask : flagAt [bBool enable, bBool mask] 1 = mask := flagAt_of_fld (fld_cons_zero _ _)
  rw [notifyControl, if_neg (not_not_intro hlen), if_neg hflags, henable, hmask]
  rfl

theorem notifyControl_outOfRange {enable mask : Byte} (h : 2 ≤ enable.toNat ∨ 2 ≤ mask.toNat) :
    notifyControl p [enable, mask] s = refuse s .badArgument := by
  have hlen : [enable, mask].length = 2 := rfl
  have hflags : allBool [enable, mask] = false := by
    simp [allBool]
    omega
  rw [notifyControl, if_neg (not_not_intro hlen), if_pos hflags]

theorem NotifyUnit.control_vec_of_off (mask : Bool) (n : NotifyUnit) (v : VecNo) :
    (n.control false mask).vecs.get v = ⟨.idle, 0, (n.vecs.get v).masked⟩ := by
  simp [control, setLine]

theorem NotifyUnit.control_vec_of_on (mask : Bool) (n : NotifyUnit) (v : VecNo) :
    (n.control true mask).vecs.get v = (n.vecs.get v).refunction n.functionMask mask := Tab.get_map _ _ v

/-! ## VECTOR CONFIGURE -/

theorem readClassMap_of_fld {args : List Byte} {classMap : Tab 6 VecNo}
    (h : ∀ k : Fin 6, fld args (8 + k.val) 1 = (classMap.get k).val) : readClassMap args = some classMap := by
  rw [readClassMap, dif_pos fun k => (h k).trans_lt (classMap.get k).isLt]
  refine congrArg some (Tab.ext_get fun k => ?_)
  rw [Tab.get_build]
  exact Fin.ext (h k)

theorem readClassMap_outOfRange {args : List Byte} {k : Nat} (hlow : 8 ≤ k) (hhigh : k < 14) (h : 8 ≤ fld args k 1) :
    readClassMap args = none := by
  rw [readClassMap, dif_neg fun hall => ?_]
  have hk := hall ⟨k - 8, by omega⟩
  rw [Nat.add_sub_cancel' hlow] at hk
  omega

/-- The argument bytes of a VECTOR CONFIGURE (R203). -/
def configureBytes (masks : Tab 8 Bool) (classMap : Tab 6 VecNo) : List Byte :=
  allVecs.map (fun v => bBool (masks.get v)) ++ ([0, 1, 2, 3, 4, 5] : List (Fin 6)).map (fun c => b1 (classMap.get c).val)

section
variable (masks : Tab 8 Bool) (classMap : Tab 6 VecNo)

theorem length_configureBytes : (configureBytes masks classMap).length = 14 := rfl

theorem configureBytes_mask (v : VecNo) : flagAt (configureBytes masks classMap) v.val = masks.get v := by
  refine flagAt_of_fld ((fld_eq_getElem (by rw [length_configureBytes]; omega)).trans ?_)
  fin_cases v <;> rfl

theorem configureBytes_class (k : Fin 6) : fld (configureBytes masks classMap) (8 + k.val) 1 = (classMap.get k).val := by
  have hbyte : (b1 (classMap.get k).val).toNat = (classMap.get k).val := by
    rw [toNat_b1]
    omega
  refine (fld_eq_getElem (by rw [length_configureBytes]; omega)).trans (Eq.trans ?_ hbyte)
  fin_cases k <;> rfl

theorem vectorConfigure_passing : vectorConfigure p (configureBytes masks classMap) s =
    ok { s with vectors := s.vectors.set p ((s.vectors.get p).configure masks.get classMap) } (configureBytes masks classMap) := by
  have hmasks : (fun v : VecNo => flagAt (configureBytes masks classMap) v.val) = masks.get :=
    funext (configureBytes_mask masks classMap)
  have height : (allVecs.map fun v => bBool (masks.get v)).length = 8 := rfl
  have hflags : ¬allBool ((configureBytes masks classMap).take 8) = false := by
    rw [configureBytes, List.take_left' height, allBool_map]
    exact Bool.noConfusion
  rw [vectorConfigure, if_neg (not_not_intro (length_configureBytes masks classMap)), if_neg hflags,
    readClassMap_of_fld (configureBytes_class masks classMap)]
  dsimp only
  rw [hmasks]

end

theorem vectorConfigure_outOfRange {args : List Byte} (hlen : args.length = 14)
    (hout : (∃ k, k < 8 ∧ 2 ≤ fld args k 1) ∨ ∃ k, 8 ≤ k ∧ k < 14 ∧ 8 ≤ fld args k 1) :
    vectorConfigure p args s = refuse s .badArgument := by
  rw [vectorConfigure, if_neg (not_not_intro hlen)]
  rcases hout with ⟨k, hk, hmask⟩ | ⟨k, hlow, hhigh, hclass⟩
  · rw [if_pos (allBool_take_of_fld (by omega) hk hmask)]
  · rw [readClassMap_outOfRange hlow hhigh hclass]
    exact ite_self _

theorem NotifyUnit.configure_vec (masks : VecNo → Bool) (classMap : Tab 6 VecNo) (n : NotifyUnit) (v : VecNo) :
    (n.configure masks classMap).vecs.get v = (n.vecs.get v).remask (masks v) n.functionMask := Tab.get_build _ v

end

/-- Settles O50: each request's rule on the bytes of R203, and `Vec.remask_state` and `Vec.refunction_state` for the vectors. -/
theorem vectorRequestsActOnTheirPort : Obligations.VectorRequestsActOnTheirPort := by
  intro p s htakes
  refine ⟨fun v => ?ack, fun enable mask => ?control, fun masks classMap => ?configure,
    fun v hout => congrArg _ (request_refused htakes (vectorAck_outOfRange p hout)),
    fun enable mask hout => congrArg _ (request_refused htakes (notifyControl_outOfRange p hout)),
    fun args hlen hout => congrArg _ (request_refused htakes (vectorConfigure_outOfRange p hlen hout)),
    congrArg _ (request_carried htakes rfl)⟩
  case ack =>
    have hrule := vectorAck_of_vec p (s := s) v
    by_cases hidle : ((s.vectors.get p).vecs.get v).state = .idle
    · rw [if_pos hidle] at hrule
      refine ⟨s.vectors.get p, ?_, fun _ => rfl, absurd hidle⟩
      rw [if_pos hidle, Tab.set_get]
      exact congrArg _ (request_carried htakes hrule)
    · rw [if_neg hidle] at hrule
      refine ⟨(s.vectors.get p).ack v, ?_, fun h => absurd h hidle, fun _ => ⟨NotifyUnit.setLine_lineTied _, rfl⟩⟩
      rw [if_neg hidle]
      exact congrArg _ (request_carried htakes hrule)
  case control =>
    refine ⟨(s.vectors.get p).control enable mask, congrArg _ (request_carried htakes (notifyControl_passing p enable mask)),
      NotifyUnit.setLine_lineTied _, rfl, rfl, rfl, fun v => ?_⟩
    cases enable with
    | false =>
      rw [NotifyUnit.control_vec_of_off]
      exact ⟨rfl, fun _ => ⟨rfl, rfl⟩, fun h => absurd h Bool.false_ne_true⟩
    | true =>
      rw [NotifyUnit.control_vec_of_on]
      exact ⟨Vec.refunction_masked _ _ _, fun h => absurd h.symm Bool.false_ne_true,
        fun _ => ⟨Vec.refunction_count _ _ _, Vec.refunction_state _ _ _⟩⟩
  case configure =>
    refine ⟨configureBytes masks classMap, (s.vectors.get p).configure masks.get classMap, rfl,
      congrArg _ (request_carried htakes (vectorConfigure_passing p masks classMap)),
      NotifyUnit.setLine_lineTied _, rfl, rfl, rfl, fun v => ?_⟩
    rw [NotifyUnit.configure_vec]
    exact ⟨rfl, rfl, Vec.remask_state _ _ _⟩

end Sys2Proof.Machine
end

section
/-! SUPPORT. The state right after power-on meets every invariant that the steps keep: it is the state that a POWER_ON makes of it
(R200). -/

namespace Sys2Proof.Machine

open Sys2Proof.Safety

theorem State.reset_port (p : Port) : State.reset.ports.get p = .reset := Tab.get_fill _ p

/-- What POWER_ON keeps of a state without supply, `State.reset` has at its power-on value already (R182, R200). -/
theorem powerOnValues_reset : powerOnValues State.reset = State.reset := by
  have hports : (State.reset.ports.map fun q => { PortState.reset with prstnLow := q.prstnLow }) = State.reset.ports := by
    refine Tab.ext_get fun p => ?_
    rw [Tab.get_map, State.reset_port]
  unfold powerOnValues
  rw [hports]
  rfl

/-- Without an entry on the schedule no due and no period is out of its bounds. -/
theorem armedLists_of_empty {s : State} (h : s.sched.live = []) : ArmedSorted s ∧ DuesAhead s ∧ PeriodsPositive s := by
  have harmed : s.sched.armed = [] := List.map_eq_nil_iff.1 (List.append_eq_nil_iff.1 h).1
  simp [ArmedSorted, DuesAhead, PeriodsPositive, harmed, h]

theorem LeasesTied_reset : LeasesTied State.reset := fun p => by
  rw [State.reset_port]
  simp [PortState.reset, leaseInRange]

theorem ReceiversTied_reset : ReceiversTied State.reset := fun p => by
  rw [State.reset_port]
  exact ⟨rfl, fun h => absurd h Bool.false_ne_true⟩

/-- Settles O4: the invariants that every POWER_ON establishes hold by `powerOnValues_reset`, and the others block by block. -/
theorem resetMeetsTheInvariants : Obligations.ResetMeetsTheInvariants := by
  have hempty := powerOnValues_emptyBeforeLoad State.reset
  have hclaims := powerOnValues_claimsTied State.reset
  have hslots := powerOnValues_slotsTied State.reset
  have hrecords := powerOnValues_recordsTied State.reset
  have hdisc := powerOnValues_tied State.reset
  rw [powerOnValues_reset] at hempty hclaims hslots hrecords hdisc
  obtain ⟨hsorted, hahead, hperiods⟩ := armedLists_of_empty (s := State.reset) rfl
  exact ⟨FaultLineTied_of_reset rfl, VectorsTied_of_reset rfl, RingsBounded_of_reset rfl, hsorted, pinsTied_iff.2 ⟨hclaims, hempty⟩,
    hslots, watchTied_iff.2 ⟨hrecords, hempty⟩, LeasesTied_reset, hdisc, hahead, hperiods, ReceiversTied_reset⟩

end Sys2Proof.Machine
end

section
/-! SUPPORT. One occurrence whole: the cell that it counts, its capture or the overflow flag, and its FAULT records and class raises
(R154 to R156, R159). -/

namespace Sys2Proof.Machine

open Sys2Proof.Safety

/-! ## The fault log after an occurrence -/

/-- An occurrence counts in the cell of its own kind, and changes no other cell (R154). -/
theorem occurOne_cell (k : FaultKind) (port : Option Port) (ctx : FaultContext) (s : State) (j : Fin 11) :
    (occurOne k port ctx s).1.faults.cells.get j =
      if k.idx = j then { s.faults.cells.get k.idx with count := bumped (s.faults.cells.get k.idx).count }
      else s.faults.cells.get j := by
  rw [occurOne_cells, bumpCount, Tab.get_upd]
  rfl

/-- An occurrence that is captured leaves the overflow flag as it was (R155). -/
theorem occurrenceLogged_overflow_of_none {s : State} (h : s.faults.capture = none) (k : FaultKind) (port : Option Port)
    (ctx : FaultContext) : (occurrenceLogged k port ctx s).faults.overflow = s.faults.overflow := by
  have hnone : (bumpCount k s).faults.capture = none := h
  unfold occurrenceLogged captureOccurrence
  rw [hnone]
  rfl

/-- Where a capture record is held, the overflow flag is set (R155). -/
theorem occurrenceLogged_overflow_of_held {s : State} {c : CaptureRecord} (h : s.faults.capture = some c) (k : FaultKind)
    (port : Option Port) (ctx : FaultContext) : (occurrenceLogged k port ctx s).faults.overflow = true := by
  have hheld : (bumpCount k s).faults.capture = some c := h
  unfold occurrenceLogged captureOccurrence
  rw [hheld]
  rfl

/-! ## The records and raises of a first occurrence -/

/-- Each selecting ring takes the FAULT record once, and no other ring changes (R156). -/
theorem notifyOccurrence_ring (p : Port) (k : FaultKind) (sev : Severity) (s : State) :
    (notifyOccurrence k sev s).1.rings.get p =
      if (s.rings.get p).selFault = true then (s.rings.get p).take (plainRecord s (.fault k sev)) else s.rings.get p := by
  rw [notifyOccurrence, raiseClassAll_rings, ringPutAll_ring p _ (faultSelectors_nodup s)]
  exact if_congr mem_faultSelectors rfl rfl

theorem notifyOccurrence_classRaised (p : Port) (k : FaultKind) (sev : Severity) (s : State) :
    ClassRaised s (notifyOccurrence k sev s).1 p .fault :=
  ClassRaised_before (raiseClassAll_classRaised (mem_allPorts p) _ _) (ringPutAll_raisesKept _ _ s)

/-- The log's own part of an occurrence leaves what a record is stamped with (R124). -/
theorem occurrenceLogged_plainRecord (k : FaultKind) (port : Option Port) (ctx : FaultContext) (s : State) (body : RecordBody) :
    plainRecord (occurrenceLogged k port ctx s) body = plainRecord s body := by
  have hlog := occurrenceLogged_logOnly k port ctx s
  simp only [plainRecord, stamped, State.isLocked, hlog.time, hlog.disc]

section
variable {k : FaultKind} {s : State} (hmasked : (s.faults.cells.get k.idx).masked = false)
  (hcount : (s.faults.cells.get k.idx).count = 0) (port : Option Port) (ctx : FaultContext)
include hmasked hcount

theorem occurOne_ring_of_first (p : Port) : (occurOne k port ctx s).1.rings.get p =
    if (s.rings.get p).selFault = true then
      (s.rings.get p).take (plainRecord s (.fault k (s.faults.cells.get k.idx).severity))
    else s.rings.get p := by
  rw [(occurOne_of_first hmasked hcount port ctx).1.rings, notifyOccurrence_ring, occurrenceLogged_plainRecord,
    occurrenceLogged_rings]

theorem occurOne_classRaised_of_first (p : Port) : ClassRaised s (occurOne k port ctx s).1 p .fault := by
  have hnotified := notifyOccurrence_classRaised p k (s.faults.cells.get k.idx).severity (occurrenceLogged k port ctx s)
  have hbefore := ClassRaised_before hnotified (.of_vectors (occurrenceLogged_vectors k port ctx s))
  exact ClassRaised_later hbefore (.of_vectors (occurOne_of_first hmasked hcount port ctx).1.vectors)

end

/-- Settles O52: the cell by `occurOne_cell`, the capture by that of `occurrenceLogged`, the hold notice by `occurOne_sched`, and
the records and raises by whether the kind had a count. -/
theorem occurrenceIsCountedAndReported : Obligations.OccurrenceIsCountedAndReported := by
  rintro k port ctx s t drops c rfl hone
  obtain ⟨rfl, rfl⟩ : (occurOne k port ctx s).1 = t ∧ (occurOne k port ctx s).2 = drops := Prod.ext_iff.1 hone
  refine ⟨?own, fun j hj => ?other, (policyKept_occurrenceKeeps.occurOne k port ctx s).safeOnMajor, fun hmasked => ?masked,
    fun hmasked => ?unmasked⟩
  case own => rw [occurOne_cell, if_pos rfl]
  case other => rw [occurOne_cell, if_neg (Ne.symm hj)]
  case masked =>
    rw [occurOne_of_masked hmasked]
    exact ⟨rfl, rfl⟩
  case unmasked =>
    have hfaults := occurOne_faults_of_unmasked hmasked port ctx
    refine ⟨occurOne_logOnly k port ctx s, FaultLineTied_of_setLine hfaults, fun hnone => ?captured, fun hheld => ?held, ?hold,
      fun hcount => ?counted, fun hcount p => ⟨fun hsel => ?unselected, fun hsel hroom => ?record, ?raise⟩⟩
    case captured =>
      rw [hfaults]
      exact ⟨occurrenceLogged_captures hnone k port ctx, occurrenceLogged_overflow_of_none hnone k port ctx⟩
    case held =>
      obtain ⟨c, hc⟩ := Option.ne_none_iff_exists'.1 hheld
      rw [hfaults, hc]
      exact ⟨occurrenceLogged_captureKept k port ctx s c hc, occurrenceLogged_overflow_of_held hc k port ctx⟩
    case hold =>
      rw [occurOne_sched]
      simp [hmasked]
    case counted =>
      obtain ⟨hsame, hdrops⟩ := occurOne_of_counted hmasked hcount port ctx
      exact ⟨hsame.rings.trans (occurrenceLogged_rings k port ctx s),
        hsame.vectors.trans (occurrenceLogged_vectors k port ctx s), hdrops⟩
    case unselected => rw [occurOne_ring_of_first hmasked hcount, if_neg (by simp [hsel])]
    case record =>
      rw [occurOne_ring_of_first hmasked hcount, if_pos hsel, Ring.take_of_room hroom]
      rfl
    case raise => exact occurOne_classRaised_of_first hmasked hcount port ctx p

end Sys2Proof.Machine
end

section
/-! SUPPORT. The fault log's requests: the bytes of FAULT READ, what FAULT CLEAR, FAULT CONFIGURE and FAULT RECORD CLEAR make of the
log, and their refusals (R159 to R161, R163, R164, R201, R203). -/

namespace Sys2Proof.Machine

open Sys2Proof.Safety

/-! ## The bytes of the log -/

theorem FaultContext.bytes_eq_layout (c : FaultContext) : c.bytes = contextLayout c := by
  cases c with
  | none => exact (by decide : beN 8 0 = [0, 0, 0, 0, 0, 0, 0, 0])
  | phaseError e =>
    have hsize : ((256 ^ 8 : Nat) : Int) = 18446744073709551616 := by norm_num
    rw [bytes, contextLayout, beInt, hsize]
  | missCount n => rfl
  | interval ns => rfl
  | stepAmount ns => rfl
  | lateFire tag slot lateness => rfl
  | frame x0 x1 x2 x3 => rfl
  | contention k driven => rfl

theorem captureBytes_eq_layout (o : Option CaptureRecord) : captureBytes o = captureLayout o := by
  cases o with
  | none => decide
  | some c =>
    rw [captureBytes, captureLayout, FaultContext.bytes_eq_layout]
    rfl

theorem length_contextLayout (c : FaultContext) : (contextLayout c).length = 8 := by
  cases c <;> simp [contextLayout]

theorem length_captureLayout (o : Option CaptureRecord) : (captureLayout o).length = 20 := by
  cases o <;> simp [captureLayout, length_contextLayout]

theorem allKinds_eq_finRange : allKinds = List.finRange 11 := by decide

/-- A set of kinds has 11 bits, bit k for fault kind k (R201). -/
theorem kindSet_eq_ofBits (f : Fin 11 → Bool) : kindSet f = Nat.ofBits f := by
  rw [kindSet, allKinds_eq_finRange, sum_bitAt_eq_ofBits]

theorem kindSet_lt (f : Fin 11 → Bool) : kindSet f < 2 ^ 11 := by
  rw [kindSet_eq_ofBits]
  exact Nat.ofBits_lt_two_pow f

theorem testBit_kindSet (f : Fin 11 → Bool) (k : Fin 11) : (kindSet f).testBit k.val = f k := by
  rw [kindSet_eq_ofBits]
  exact Nat.testBit_ofBits_lt f _ k.isLt

/-- What a FAULT READ gives behind the counts (R160). -/
def FaultLog.readTail (l : FaultLog) : List Byte :=
  l.maskBytes ++ l.severityBytes ++ captureLayout l.capture ++
    [b1 ((if l.overflow then 1 else 0) + (if l.safeOnMajor then 2 else 0) + (if l.faultnLow then 4 else 0))]

theorem FaultLog.length_readTail (l : FaultLog) : l.readTail.length = 25 := by
  simp [readTail, maskBytes, severityBytes, length_captureLayout]

theorem faultRead_nil (s : State) : faultRead [] s =
    ok s (allKinds.map (fun k => b1 (s.faults.cells.get k).count) ++ s.faults.readTail) := by
  simp [faultRead, FaultLog.readTail, captureBytes_eq_layout, bitAt]

/-! ## FAULT CLEAR -/

theorem FaultKind.ofCode_idx (k : FaultKind) : FaultKind.ofCode k.idx.val = some k := by
  cases k <;> rfl

theorem FaultKind.ofCode_of_ge {n : Nat} (h : 11 ≤ n) : FaultKind.ofCode n = none := by
  obtain ⟨m, rfl⟩ := Nat.exists_eq_add_of_le' h
  rfl

/-- The log with the seen count of a kind subtracted, and FAULTn set anew (R161). -/
def FaultLog.cleared (k : FaultKind) (seen : Nat) (l : FaultLog) : FaultLog :=
  FaultLog.setLine { l with
    cells := l.cells.set k.idx { l.cells.get k.idx with count := (l.cells.get k.idx).count - seen } }

section
variable {p : Port} {s : State}

theorem faultClear_passing (hholder : s.settings.holder = some p) (k : FaultKind) {seen : Nat} (hseen : seen ≤ 255) :
    faultClear p [b1 k.idx.val, b1 seen] s =
      ok { s with faults := s.faults.cleared k seen } [b1 k.idx.val, b1 (countOf s k - seen)] := by
  have hlen : [b1 k.idx.val, b1 seen].length = 2 := rfl
  have hkind : FaultKind.ofCode (fld [b1 k.idx.val, b1 seen] 0 1) = some k := by
    rw [fld_cons_zero, toNat_b1, Nat.mod_eq_of_lt (by omega), FaultKind.ofCode_idx]
  have hcount : fld [b1 k.idx.val, b1 seen] 1 1 = seen := by
    rw [fld_cons_succ, fld_cons_zero, toNat_b1, Nat.mod_eq_of_lt (by omega)]
  rw [faultClear, if_neg (not_not_intro hlen), if_neg (by simp [holdsSettings_of_holder hholder]), hkind, hcount]
  rfl

theorem faultClear_outOfRange (hholder : s.settings.holder = some p) {a : Byte} (h : 11 ≤ a.toNat) (b : Byte) :
    faultClear p [a, b] s = refuse s .badArgument := by
  have hlen : [a, b].length = 2 := rfl
  rw [faultClear, if_neg (not_not_intro hlen), if_neg (by simp [holdsSettings_of_holder hholder]), fld_cons_zero,
    FaultKind.ofCode_of_ge h]

theorem faultClear_of_not_holder (h : s.settings.holder ≠ some p) (a b : Byte) :
    faultClear p [a, b] s = refuse s .notPermitted := by
  simp [faultClear, holdsSettings_of_not_holder h]

end

/-! ## FAULT CONFIGURE -/

/-- The argument bytes of a FAULT CONFIGURE (R203). -/
def policyBytes (masks majors : Tab 11 Bool) (safe : Bool) : List Byte :=
  allKinds.map (fun k => bBool (masks.get k)) ++ allKinds.map (fun k => bBool (majors.get k)) ++ [bBool safe]

section
variable (masks majors : Tab 11 Bool) (safe : Bool)

theorem length_policyBytes : (policyBytes masks majors safe).length = 23 := rfl

theorem allBool_policyBytes : allBool (policyBytes masks majors safe) = true := by
  simp [allBool, policyBytes, toNat_bBool_le]

theorem policyBytes_mask (k : Fin 11) : flagAt (policyBytes masks majors safe) k.val = masks.get k := by
  refine flagAt_of_fld ((fld_eq_getElem (by rw [length_policyBytes]; omega)).trans ?_)
  fin_cases k <;> rfl

theorem policyBytes_severity (k : Fin 11) : flagAt (policyBytes masks majors safe) (11 + k.val) = majors.get k := by
  refine flagAt_of_fld ((fld_eq_getElem (by rw [length_policyBytes]; omega)).trans ?_)
  fin_cases k <;> rfl

theorem policyBytes_safeOnMajor : flagAt (policyBytes masks majors safe) 22 = safe :=
  flagAt_of_fld (fld_eq_getElem (by rw [length_policyBytes]; omega))

end

/-- The log under a new policy, with FAULTn set anew (R164). -/
def FaultLog.configured (masks majors : Tab 11 Bool) (safe : Bool) (l : FaultLog) : FaultLog :=
  FaultLog.setLine { l with
    cells := .build fun k => ⟨(l.cells.get k).count, masks.get k, severityOf (majors.get k)⟩
    safeOnMajor := safe }

theorem faultConfigured_policyBytes (masks majors : Tab 11 Bool) (safe : Bool) (s : State) :
    faultConfigured (policyBytes masks majors safe) s = { s with faults := s.faults.configured masks majors safe } := by
  simp only [faultConfigured, policyBytes_mask, policyBytes_severity, policyBytes_safeOnMajor]
  rfl

section
variable {p : Port} {s : State}

theorem faultConfigure_passing (hholder : s.settings.holder = some p) (masks majors : Tab 11 Bool) (safe : Bool) :
    faultConfigure p (policyBytes masks majors safe) s =
      ok { s with faults := s.faults.configured masks majors safe }
        (policyBytes masks majors safe ++ [bBool (s.faults.configured masks majors safe).faultnLow]) := by
  rw [faultConfigure, if_neg (not_not_intro (length_policyBytes masks majors safe)),
    if_neg (by simp [holdsSettings_of_holder hholder]), if_neg (by simp [allBool_policyBytes]), faultConfigured_policyBytes]

theorem faultConfigure_outOfRange (hholder : s.settings.holder = some p) {args : List Byte} (hlen : args.length = 23)
    (hout : ∃ b ∈ args, 2 ≤ b.toNat) : faultConfigure p args s = refuse s .badArgument := by
  obtain ⟨b, hmem, hb⟩ := hout
  have hnot : ¬decide (b.toNat ≤ 1) = true := fun hbit => absurd (of_decide_eq_true hbit) (Nat.not_le.2 hb)
  have hflags : allBool args = false := List.all_eq_false.2 ⟨b, hmem, hnot⟩
  rw [faultConfigure, if_neg (not_not_intro hlen), if_neg (by simp [holdsSettings_of_holder hholder]), if_pos hflags]

theorem faultConfigure_of_not_holder (h : s.settings.holder ≠ some p) {args : List Byte} (hlen : args.length = 23) :
    faultConfigure p args s = refuse s .notPermitted := by
  simp [faultConfigure, hlen, holdsSettings_of_not_holder h]

/-! ## FAULT RECORD CLEAR -/

theorem faultRecordClear_passing (hholder : s.settings.holder = some p) : faultRecordClear p [] s =
    ok { s with faults := { s.faults with capture := none, overflow := false } }
      (captureLayout s.faults.capture ++ [bBool s.faults.overflow]) := by
  simp [faultRecordClear, holdsSettings_of_holder hholder, captureBytes_eq_layout]

theorem faultRecordClear_of_not_holder (h : s.settings.holder ≠ some p) :
    faultRecordClear p [] s = refuse s .notPermitted := by
  simp [faultRecordClear, holdsSettings_of_not_holder h]

end

/-- Settles O53: each request's rule by its passing branch or its refusal, and the bytes of FAULT READ by `faultRead_nil`. -/
theorem faultRequestsClearAndConfigure : Obligations.FaultRequestsClearAndConfigure := by
  intro p s htakes
  refine ⟨fun hholder => ⟨fun k seen hseen => ?clear, fun masks majors safe => ?configure, ?recordClear,
      fun a b hout => congrArg _ (request_refused htakes (faultClear_outOfRange hholder hout b)),
      fun args hlen hout => congrArg _ (request_refused htakes (faultConfigure_outOfRange hholder hlen hout))⟩,
    fun hnot => ⟨fun a b => congrArg _ (request_refused htakes (faultClear_of_not_holder hnot a b)),
      fun args hlen => congrArg _ (request_refused htakes (faultConfigure_of_not_holder hnot hlen)),
      congrArg _ (request_refused htakes (faultRecordClear_of_not_holder hnot))⟩, ?read⟩
  case clear =>
    exact ⟨s.faults.cleared k seen, congrArg _ (request_carried htakes (faultClear_passing hholder k hseen)),
      FaultLineTied_of_setLine rfl, rfl⟩
  case configure =>
    exact ⟨policyBytes masks majors safe, s.faults.configured masks majors safe, rfl,
      congrArg _ (request_carried htakes (faultConfigure_passing hholder masks majors safe)), FaultLineTied_of_setLine rfl,
      rfl, rfl, rfl, fun k => Tab.get_build _ k⟩
  case recordClear => exact ⟨_, congrArg _ (request_carried htakes (faultRecordClear_passing hholder)), rfl⟩
  case read =>
    exact ⟨kindSet fun k => (s.faults.cells.get k).masked, kindSet fun k => decide ((s.faults.cells.get k).severity = .major),
      s.faults.readTail, congrArg _ (request_ok htakes (faultRead_nil s)), s.faults.length_readTail, rfl, kindSet_lt _,
      kindSet_lt _, fun k => ⟨testBit_kindSet _ k, testBit_kindSet _ k⟩⟩

end Sys2Proof.Machine
end

section
/-! SUPPORT. What every step keeps of the ports: an EXPIRED port without claims, the lease NONE exactly at period 0 (R172, R191, R193),
every receiver idle between commands, and a frame missed only where nothing else keeps the port from beginning one (R183, R195,
R199). -/

namespace Sys2Proof.Machine

open Sys2Proof.Safety

/-! ## One port's lease -/

/-- The port holds neither the settings claim nor a pin claim. -/
structure Unclaimed (s : State) (p : Port) : Prop where
  settings : s.settings.holder ≠ some p
  pins : ∀ k, (s.pins.get k).holder ≠ some p

/-- The lease is NONE exactly at period 0, and both periods are in their range (R172, R191). -/
structure PortState.LeaseInRange (q : PortState) : Prop where
  none_iff : q.lease = .none ↔ q.leasePeriodMs = 0
  period : leaseInRange q.leasePeriodMs = true
  default : leaseInRange q.defaultLeaseMs = true

theorem leasesTied_iff {s : State} : LeasesTied s ↔
    ∀ p, (s.ports.get p).LeaseInRange ∧ ((s.ports.get p).lease = .expired → Unclaimed s p) :=
  forall_congr' fun _ =>
    ⟨fun ⟨hnone, hperiod, hdefault, hclaims⟩ => ⟨⟨hnone, hperiod, hdefault⟩, fun h => ⟨(hclaims h).1, (hclaims h).2⟩⟩,
      fun ⟨⟨hnone, hperiod, hdefault⟩, hclaims⟩ => ⟨hnone, hperiod, hdefault, fun h => ⟨(hclaims h).settings, (hclaims h).pins⟩⟩⟩

/-- The same lease, period and default period. -/
structure PortState.SameLease (q q' : PortState) : Prop where
  lease : q'.lease = q.lease
  period : q'.leasePeriodMs = q.leasePeriodMs
  default : q'.defaultLeaseMs = q.defaultLeaseMs

theorem PortState.SameLease.of_eq {q q' : PortState} (h : q' = q) : q.SameLease q' := by
  subst h
  exact ⟨rfl, rfl, rfl⟩

theorem PortState.SameLease.trans {q q' q'' : PortState} (h : q.SameLease q') (k : q'.SameLease q'') : q.SameLease q'' :=
  ⟨k.lease.trans h.lease, k.period.trans h.period, k.default.trans h.default⟩

theorem PortState.LeaseInRange.of_same {q q' : PortState} (hq : q.LeaseInRange) (h : q.SameLease q') : q'.LeaseInRange where
  none_iff := by rw [h.lease, h.period]; exact hq.none_iff
  period := by rw [h.period]; exact hq.period
  default := by rw [h.default]; exact hq.default

theorem PortState.LeaseInRange.startLease {q : PortState} (hq : q.LeaseInRange) {ms : Nat} (hms : leaseInRange ms = true)
    (rt : Nat) : (q.startLease rt ms).LeaseInRange where
  none_iff := by by_cases h : ms = 0 <;> simp [PortState.startLease, h]
  period := hms
  default := hq.default

theorem PortState.startLease_not_expired (rt ms : Nat) (q : PortState) : (q.startLease rt ms).lease ≠ .expired := by
  by_cases h : ms = 0 <;> simp [PortState.startLease, h]

theorem PortState.reset_leaseInRange : PortState.reset.LeaseInRange := ⟨by decide, by decide, by decide⟩

/-- A period that started a lease is not 0, so the lease may expire (R191, R193). -/
theorem PortState.LeaseInRange.expire {q : PortState} (hq : q.LeaseInRange) {point : Nat} (h : q.lease = .running point) :
    PortState.LeaseInRange { q with lease := .expired } where
  none_iff := by
    have hperiod : q.leasePeriodMs ≠ 0 := fun hzero => by
      rw [hq.none_iff.2 hzero] at h
      cases h
    simp [hperiod]
  period := hq.period
  default := hq.default

/-- The same PRSTn; an idle receiver is idle again, and no frame is missed anew. -/
structure PortState.SameDoor (q q' : PortState) : Prop where
  prstnLow : q'.prstnLow = q.prstnLow
  idle : q.receiver = .idle → q'.receiver = .idle
  missed : q'.missed = true → q.missed = true

theorem PortState.SameDoor.of_eq {q q' : PortState} (h : q' = q) : q.SameDoor q' := by
  subst h
  exact ⟨rfl, id, id⟩

theorem PortState.SameDoor.trans {q q' q'' : PortState} (h : q.SameDoor q') (k : q'.SameDoor q'') : q.SameDoor q'' :=
  ⟨k.prstnLow.trans h.prstnLow, k.idle ∘ h.idle, h.missed ∘ k.missed⟩

/-! ## What a command keeps of the leases and of the receivers -/

/-- A change of one cell keeps what it keeps of that cell. -/
theorem upd_related {n : Nat} {α : Type} {R : α → α → Prop} (hrefl : ∀ x, R x x) {tab : Tab n α} {i : Fin n} {f : α → α}
    (h : R (tab.get i) (f (tab.get i))) (j : Fin n) : R (tab.get j) ((tab.upd i f).get j) := by
  rw [Tab.get_upd]
  split
  next hij => exact hij ▸ h
  next => exact hrefl _

/-- No lease changes, and no port that holds no claim gets one. -/
structure LeasesKept (s t : State) : Prop where
  port : ∀ p, (s.ports.get p).SameLease (t.ports.get p)
  unclaimed : ∀ p, Unclaimed s p → Unclaimed t p

/-- Supply, RESETn and the awaited load stay, and every door. -/
structure DoorsKept (s t : State) : Prop where
  powered : t.powered = s.powered
  resetnLow : t.resetnLow = s.resetnLow
  load : t.load = s.load
  port : ∀ p, (s.ports.get p).SameDoor (t.ports.get p)

/-- Neither a lease nor a receiver is moved, and no claim is given. -/
structure PortsKept (s t : State) : Prop where
  leases : LeasesKept s t
  doors : DoorsKept s t

section
variable {s t u : State}

theorem LeasesKept.trans (h : LeasesKept s t) (k : LeasesKept t u) : LeasesKept s u :=
  ⟨fun p => (h.port p).trans (k.port p), fun p hp => k.unclaimed p (h.unclaimed p hp)⟩

theorem LeasesKept.leasesTied (h : LeasesKept s t) (hs : LeasesTied s) : LeasesTied t := by
  refine leasesTied_iff.2 fun p => ?_
  obtain ⟨hrange, hclaims⟩ := leasesTied_iff.1 hs p
  exact ⟨hrange.of_same (h.port p), fun hexpired => h.unclaimed p (hclaims ((h.port p).lease.symm.trans hexpired))⟩

theorem DoorsKept.trans (h : DoorsKept s t) (k : DoorsKept t u) : DoorsKept s u :=
  ⟨k.powered.trans h.powered, k.resetnLow.trans h.resetnLow, k.load.trans h.load, fun p => (h.port p).trans (k.port p)⟩

theorem DoorsKept.receiversTied (h : DoorsKept s t) (hs : ReceiversTied s) : ReceiversTied t := fun p => by
  obtain ⟨hidle, hmissed⟩ := hs p
  obtain ⟨hprstn, hidle', hmissed'⟩ := h.port p
  rw [h.powered, h.resetnLow, h.load, hprstn]
  exact ⟨hidle' hidle, fun hm => hmissed (hmissed' hm)⟩

theorem PortsKept.trans (h : PortsKept s t) (k : PortsKept t u) : PortsKept s u :=
  ⟨h.leases.trans k.leases, h.doors.trans k.doors⟩

/-- What comes before and leaves the ports alone does not matter. -/
theorem PortsKept.after (k : PortsKept t u) (h : PortsKept s t) : PortsKept s u := h.trans k

theorem LeasesKept.of_ports (hports : t.ports = s.ports) (h : ∀ p, Unclaimed s p → Unclaimed t p) : LeasesKept s t :=
  ⟨fun p => .of_eq (by rw [hports]), h⟩

theorem DoorsKept.of_ports (hpowered : t.powered = s.powered) (hresetn : t.resetnLow = s.resetnLow) (hload : t.load = s.load)
    (hports : t.ports = s.ports) : DoorsKept s t := ⟨hpowered, hresetn, hload, fun p => .of_eq (by rw [hports])⟩

/-- A change that takes pin claims at the most, with the footprint of an edge of the reference. -/
theorem PortsKept.of_edgeOnly (h : EdgeOnly s t) (hpins : ∀ p, (∀ k, (s.pins.get k).holder ≠ some p) →
    ∀ k, (t.pins.get k).holder ≠ some p) : PortsKept s t where
  leases := .of_ports h.ports fun p hp => ⟨by rw [h.settings]; exact hp.settings, hpins p hp.pins⟩
  doors := .of_ports h.powered h.resetnLow h.load h.ports

theorem PortsKept.of_holders (h : EdgeOnly s t) (hholder : ∀ k, (t.pins.get k).holder = (s.pins.get k).holder) : PortsKept s t :=
  .of_edgeOnly h fun p hp k => by rw [hholder]; exact hp k

/-- A change of one pin that leaves its holder or clears it. -/
theorem PortsKept.of_cell {k : Pin} {f : PinCell → PinCell} (h : EdgeOnly s t) (hpins : t.pins = s.pins.upd k f)
    (hf : ∀ (c : PinCell) p, c.holder ≠ some p → (f c).holder ≠ some p) : PortsKept s t := by
  refine .of_edgeOnly h fun p hp j => ?_
  rw [hpins]
  exact upd_related (R := fun c c' : PinCell => c.holder ≠ some p → c'.holder ≠ some p) (fun _ => id) (hf _ p) j (hp j)

theorem PortsKept.of_samePins (h : EdgeOnly s t) (hpins : t.pins = s.pins) : PortsKept s t :=
  .of_holders h fun _ => by rw [hpins]

theorem PortsKept.of_logOnly (h : LogOnly s t) : PortsKept s t := .of_samePins h.fire.edge h.pins

theorem PortsKept.refl (s : State) : PortsKept s s := .of_logOnly (.refl s)

theorem PortsKept.of_eq (h : t = s) : PortsKept s t := h ▸ .refl s

/-- The ports, what opens them, and who holds the claims are the same. -/
theorem PortsKept.of_same (hpowered : t.powered = s.powered) (hresetn : t.resetnLow = s.resetnLow) (hload : t.load = s.load)
    (hports : t.ports = s.ports) (hsettings : t.settings.holder = s.settings.holder) (hpins : t.pins = s.pins) :
    PortsKept s t where
  leases := .of_ports hports fun p hp => ⟨by rw [hsettings]; exact hp.settings, by rw [hpins]; exact hp.pins⟩
  doors := .of_ports hpowered hresetn hload hports

theorem DoorsKept.refl (s : State) : DoorsKept s s := .of_ports rfl rfl rfl rfl

/-- A change of one port alone. -/
theorem DoorsKept.of_upd {p : Port} {f : PortState → PortState} (hpowered : t.powered = s.powered)
    (hresetn : t.resetnLow = s.resetnLow) (hload : t.load = s.load) (hports : t.ports = s.ports.upd p f)
    (hdoor : (s.ports.get p).SameDoor (f (s.ports.get p))) : DoorsKept s t := by
  refine ⟨hpowered, hresetn, hload, fun q => ?_⟩
  rw [hports]
  exact upd_related (fun _ => .of_eq rfl) hdoor q

/-- A frame's change of its port: neither a claim nor a lease. -/
theorem PortsKept.of_frame {p : Port} {f : PortState → PortState} (ht : t = { s with ports := s.ports.upd p f })
    (hlease : ∀ q, PortState.SameLease q (f q)) (hdoor : ∀ q, PortState.SameDoor q (f q)) : PortsKept s t := by
  subst ht
  exact ⟨⟨upd_related (fun _ => .of_eq rfl) (hlease _), fun q hq => ⟨hq.settings, hq.pins⟩⟩,
    .of_upd rfl rfl rfl rfl (hdoor _)⟩

end

/-! ## Frames and requests -/

theorem frameEnd_portsKept (p : Port) (s : State) : PortsKept s (frameEnd p s) :=
  .of_frame rfl (fun _ => ⟨rfl, rfl, rfl⟩) fun _ => ⟨rfl, fun _ => rfl, fun h => absurd h Bool.false_ne_true⟩

theorem answer_portsKept (p : Port) (r : Result) (s : State) : PortsKept s (answer p r s) :=
  .of_frame rfl (fun _ => ⟨rfl, rfl, rfl⟩) fun _ => ⟨rfl, fun _ => rfl, id⟩

section
variable {p : Port} {code : Byte} {s : State} {rule : State → Reply}

theorem request_portsKept (h : PortsKept s (rule s).state) : PortsKept s (request p code s rule) := by
  rcases request_cases p code s rule with ⟨e, -⟩ | ⟨e, -⟩ <;> rw [e]
  · exact frameEnd_portsKept p s
  · exact h.trans (answer_portsKept _ _ _)

theorem request_doorsKept (h : DoorsKept s (rule s).state) : DoorsKept s (request p code s rule) := by
  rcases request_cases p code s rule with ⟨e, -⟩ | ⟨e, -⟩ <;> rw [e]
  · exact (frameEnd_portsKept p s).doors
  · exact h.trans (answer_portsKept _ _ _).doors

theorem request_leasesTied (hs : LeasesTied s) (h : LeasesTied (rule s).state) : LeasesTied (request p code s rule) := by
  rcases request_cases p code s rule with ⟨e, -⟩ | ⟨e, -⟩ <;> rw [e]
  · exact (frameEnd_portsKept p s).leases.leasesTied hs
  · exact (answer_portsKept _ _ _).leases.leasesTied h

end

theorem unknownRequest_portsKept (p : Port) (code : Byte) (args : List Byte) (s : State) :
    PortsKept s (unknownRequest p code args s) := by
  unfold unknownRequest
  split
  · exact .refl s
  · exact request_portsKept (.refl s)

theorem badFrame_portsKept (p : Port) (bytes : List Byte) (trailing : Nat) (s : State) :
    PortsKept s (badFrame p bytes trailing s) := by
  unfold badFrame
  repeat' split
  · exact .refl s
  · rw [answer_receive]
    exact (answer_portsKept p _ s).trans (.of_logOnly (occur_logOnly _ _ _ _))
  · exact frameEnd_portsKept p s

/-- What a RESULT READ shifts out is through at the frame's end (R183). -/
theorem frameEnd_shiftOut_portsKept (p : Port) (s : State) : PortsKept s (frameEnd p (shiftOut p s)) := by
  have hports : (frameEnd p (shiftOut p s)).ports =
      s.ports.upd p fun q => { q with receiver := .idle, missed := false, sdo := 0xFF#8 :: resultBytes p s } := by
    refine Tab.ext_get fun q => ?_
    simp only [frameEnd, shiftOut, Tab.get_upd]
    split <;> simp
  refine .of_frame (p := p) (f := fun q => { q with receiver := .idle, missed := false, sdo := 0xFF#8 :: resultBytes p s })
    ?_ (fun _ => ⟨rfl, rfl, rfl⟩) fun _ => ⟨rfl, fun _ => rfl, fun h => absurd h Bool.false_ne_true⟩
  rw [← hports]
  rfl

theorem resultRead_portsKept (p : Port) (s : State) : PortsKept s (resultRead p s) := by
  unfold resultRead
  split
  · exact frameEnd_shiftOut_portsKept p s
  · exact frameEnd_portsKept p s

/-! ## Expiries, and edges of pins -/

theorem expiryDrive_portsKept (a : Armed) (s : State) : PortsKept s (expiryDrive a s) := by
  have hdrive : ∀ k level, PortsKept s (levelDrive k level s) := fun k level =>
    .of_cell (levelDrive_fireOnly k level s).edge rfl fun _ _ hc => by rwa [PinCell.drive_holder]
  unfold expiryDrive
  split
  · exact hdrive _ _
  · exact hdrive _ _
  · exact hdrive _ _
  · exact .refl s

theorem expireOne_portsKept (a : Armed) (n : Nat) (s : State) : PortsKept s (expireOne a n s) := by
  have hdrive := expiryDrive_portsKept a s
  cases h : a.isLead with
  | true =>
    obtain ⟨k, level, width, hact, hphase⟩ := Armed.isLead_iff.1 h
    rw [expireOne_of_lead hact hphase]
    refine (hdrive.trans ?_).trans (.of_logOnly (lateFire_logOnly a n _))
    exact .of_samePins (armEntry_fireOnly _ _).edge rfl
  | false =>
    rw [expireOne_of_not_lead h]
    refine (hdrive.trans ?_).trans (.of_logOnly (completeFiring_logOnly a n _))
    refine .of_samePins (continueEntry_fireOnly _ _ _).edge ?_
    unfold continueEntry
    split <;> rfl

theorem takeDue_portsKept (late : Bool) (s : State) : PortsKept s (takeDue late s).1 := by
  unfold takeDue
  generalize 2 * s.sched.armed.length = n
  induction n generalizing s with
  | zero => exact .refl s
  | succ n ih =>
    unfold expireDue
    split
    · exact .refl s
    · split
      · refine PortsKept.trans ?_ (ih _)
        exact (expireOne_portsKept _ _ _).after (.of_samePins ⟨rfl⟩ rfl)
      · exact .refl s

theorem expiry_portsKept (s : State) : PortsKept s (expiry s) := by
  unfold expiry
  split
  · exact takeDue_portsKept false s
  · exact .refl s

theorem handOn_portsKept (pin : Pin) (ed : Edge) (ht : Nat) (epoch : BitVec 16) (locked late : Bool) (s : State) :
    PortsKept s (handOn pin ed ht epoch locked late s) := by
  have hposted := postAll_logOnly ⟨.capture pin ed, 0, late, locked, ht, epoch⟩ (subscribers pin ed s) s
  unfold handOn edgeArrival
  generalize postAll _ _ s = posted at hposted ⊢
  have harmed : PortsKept posted (armQueues pin ed ht allPorts posted) :=
    .of_samePins (armQueues_fireOnly pin ed ht allPorts posted).edge (armQueues_samePins pin ed ht allPorts posted).pins
  exact ((PortsKept.of_logOnly hposted).trans harmed).trans (takeDue_portsKept true _)

theorem setWatch_portsKept (pin : Pin) (w : Watch) (s : State) : PortsKept s (setWatch pin w s) :=
  .of_same rfl rfl rfl rfl rfl rfl

theorem transition_portsKept (pin : Pin) (level : Level) (s : State) : PortsKept s (transition pin level s) := by
  unfold transition
  repeat' split
  · exact .refl s
  · exact setWatch_portsKept _ _ s
  · exact (handOn_portsKept _ _ _ _ _ _ _).after (setWatch_portsKept _ _ s)
  · exact setWatch_portsKept _ _ s
  · exact .refl s

theorem debounceWindowEnd_portsKept (pin : Pin) (level : Level) (s : State) :
    PortsKept s (debounceWindowEnd pin level s) := by
  unfold debounceWindowEnd
  dsimp only
  repeat' split
  · exact .refl s
  · exact setWatch_portsKept _ _ s
  · exact (handOn_portsKept _ _ _ _ _ _ _).after (setWatch_portsKept _ _ s)

/-! ## Forward steps, and edges and misses of the reference -/

theorem StepOrders.portsKept {amount : Nat} {m u : State} (h : StepOrders amount m u) : PortsKept m u := by
  rcases h with rfl | rfl
  · exact (takeDue_portsKept true m).trans (.of_logOnly (occur_logOnly _ _ _ _))
  · exact (takeDue_portsKept true _).after (.of_logOnly (occur_logOnly _ _ _ _))

theorem forwardStep_portsKept (d : Nat) (s : State) : PortsKept s (forwardStep d s) := by
  obtain ⟨draws, horders⟩ := stepNotices_orders ((s.time.step d).ht - s.time.ht) { s with time := s.time.step d }
  exact horders.portsKept.after (.of_same rfl rfl rfl rfl rfl rfl)

theorem enterState_portsKept (new : DiscState) (s : State) : PortsKept s (enterState new s) :=
  .of_samePins (enterState_edgeOnly new s) (enterState_samePins new s).pins

/-- A move to a state after a change of the discipline unit alone. -/
theorem enterState_portsKept_after (new : DiscState) (d : Discipline) (s : State) :
    PortsKept s (enterState new { s with disc := d }) :=
  (enterState_portsKept new _).after (.of_same rfl rfl rfl rfl rfl rfl)

theorem edgeInAcquire_portsKept (e : Int) (s : State) : PortsKept s (edgeInAcquire e s) := by
  unfold edgeInAcquire
  dsimp only
  repeat' split
  · exact .of_same rfl rfl rfl rfl rfl rfl
  · exact (forwardStep_portsKept _ _).after (.of_same rfl rfl rfl rfl rfl rfl)
  · exact enterState_portsKept_after _ _ s
  · exact .of_same rfl rfl rfl rfl rfl rfl

theorem handleEdge_portsKept (s : State) : PortsKept s (handleEdge s) := by
  by_cases h : s.disc.state = .acquire
  · rw [handleEdge_of_acquire h]
    exact edgeInAcquire_portsKept _ s
  · exact .of_samePins (handleEdge_edgeOnly s) (handleEdge_samePins h).pins

theorem activeEdge_portsKept (change : Edge) (s : State) : PortsKept s (activeEdge change s) := by
  unfold activeEdge
  repeat' split
  · exact (handleEdge_portsKept _).after (.of_same rfl rfl rfl rfl rfl rfl)
  · exact .of_logOnly (occur_logOnly _ _ _ s)
  · exact .refl s

theorem miss_portsKept (s : State) : PortsKept s (miss s) := by
  have hcount : PortsKept s (countMiss s) := .of_same rfl rfl rfl rfl rfl rfl
  unfold miss
  dsimp only
  repeat' split
  · exact hcount.trans ((PortsKept.of_logOnly (occur_logOnly _ _ _ _)).trans (enterState_portsKept_after _ _ _))
  · exact hcount
  · exact .refl s

/-! ## The other events -/

theorem contentionCheck_portsKept (pin : Pin) (level : Level) (s : State) : PortsKept s (contentionCheck pin level s) := by
  have hidle : PortsKept s { s with pins := s.pins.upd pin fun c => { c with check := none } } :=
    .of_cell ⟨rfl⟩ rfl (f := fun c => { c with check := none }) fun _ _ => id
  unfold contentionCheck
  dsimp only
  repeat' split
  · exact hidle
  · exact hidle
  · exact hidle.trans (.of_logOnly (occur_logOnly _ _ _ _))
  · exact .refl s

theorem storeCompletion_portsKept (verified : Bool) (s : State) : PortsKept s (storeCompletion verified s) := by
  unfold storeCompletion
  split
  · exact .refl s
  · exact .refl s
  · next snapshot takenAt freeze _ =>
    have hdone : PortsKept s (postStoreDone s.settings.requester verified
        { s with settings := s.settings.finishWrite verified snapshot freeze }) :=
      (PortsKept.of_logOnly (postStoreDone_logOnly _ _ _)).after (.of_same rfl rfl rfl rfl rfl rfl)
    dsimp only
    repeat' split
    · exact hdone
    · exact hdone.trans (.of_logOnly (occur_logOnly _ _ _ _))
    · exact .refl s

theorem enterHeld_portsKept (s : State) : PortsKept s (enterHeld s) := by
  unfold enterHeld
  split
  · exact .refl s
  · refine ⟨.of_ports rfl fun p hp => ⟨hp.settings, fun k => ?_⟩, .of_ports rfl rfl rfl rfl⟩
    rw [safeDriveAll_pins, Tab.get_map, PinCell.driveSafe_holder]
    exact hp.pins k

theorem takeHoldNotice_portsKept (s : State) : PortsKept s (takeHoldNotice s) := by
  unfold takeHoldNotice
  split
  · exact (enterHeld_portsKept _).after (.of_same rfl rfl rfl rfl rfl rfl)
  · exact .refl s

theorem execAdvance_portsKept {s t : State} (h : execAdvance s = .next t) : PortsKept s t := by
  cases h
  split
  · exact .of_same rfl rfl rfl rfl rfl rfl
  · exact .refl s

/-! ## Requests -/

section
variable (p : Port) (args : List Byte) (s : State)

theorem timeSet_portsKept : PortsKept s (timeSet p args s).state := by
  unfold timeSet
  dsimp only
  repeat' split
  · exact .refl s
  · exact .refl s
  · exact .refl s
  · exact .refl s
  · exact .refl s
  · exact .refl s
  · exact forwardStep_portsKept _ s

theorem refConfigure_portsKept : PortsKept s (refConfigure p args s).state := by
  unfold refConfigure
  repeat' split
  · exact .refl s
  · exact .refl s
  · exact .refl s
  · exact enterState_portsKept_after _ _ s

theorem scheduleAt_portsKept : PortsKept s (scheduleAt p args s).state := by
  have harmed : ∀ a, PortsKept s (armEntry a s) := fun a => .of_samePins (armEntry_fireOnly a s).edge rfl
  unfold scheduleAt
  dsimp only
  repeat' split
  · exact .refl s
  · exact .refl s
  · exact .refl s
  · exact .refl s
  · simp only [ok, placeTimed]
    split
    · exact (harmed _).trans (takeDue_portsKept true _)
    · exact harmed _

theorem cancel_portsKept : PortsKept s (cancel p args s).state := by
  have hdrive : ∀ a, PortsKept s (cancelDrive a s) := fun a => by
    unfold cancelDrive
    repeat' split
    · exact .refl s
    · exact .refl s
    · exact expiryDrive_portsKept a s
  unfold cancel
  dsimp only
  repeat' split
  · exact .refl s
  · exact (hdrive _).trans (.of_same rfl rfl rfl rfl rfl rfl)
  · exact .of_same rfl rfl rfl rfl rfl rfl
  · exact .refl s

theorem hold_portsKept : PortsKept s (hold p args s).state := by
  unfold hold
  repeat' split
  · exact .refl s
  · exact .refl s
  · exact enterHeld_portsKept s

theorem resume_portsKept : PortsKept s (resume p args s).state := by
  have hrun : PortsKept s { s with sched := { s.sched with held := false } } := .of_same rfl rfl rfl rfl rfl rfl
  unfold resume
  repeat' split
  · exact .refl s
  · exact .refl s
  · exact .refl s
  · next htake =>
    have hfired := hrun.trans (takeDue_portsKept true _)
    rw [htake] at hfired
    exact hfired
  · exact .refl s

theorem pinConfigure_portsKept (level : Level) : PortsKept s (pinConfigure p args level s).state := by
  unfold pinConfigure
  repeat' split
  · exact .refl s
  · exact .refl s
  · exact .refl s
  · exact .refl s
  · exact .refl s
  · exact .of_cell ⟨rfl⟩ rfl fun _ _ hc => by rwa [PinCell.configure_holder]

theorem pinWrite_portsKept : PortsKept s (pinWrite p args s).state := by
  unfold pinWrite
  repeat' split
  · exact .refl s
  · exact .refl s
  · exact .refl s
  · exact .refl s
  · exact .of_cell (levelDrive_fireOnly _ _ s).edge rfl fun _ _ hc => by rwa [PinCell.drive_holder]
  · exact .refl s
  · exact .refl s

theorem lostCell_holder (rt : Nat) (c : PinCell) : (lostCell rt c).holder = none := by
  rw [lostCell, ← PinCell.drive_eq, PinCell.drive_holder]

/-- A pin that loses its claim is claimed by no port (R80). -/
theorem loseClaim_portsKept (k : Pin) (why : Reason) : PortsKept s (loseClaim p k why s) :=
  .of_cell (loseClaim_fireOnly p k why s).edge (loseClaim_pins p k why s) fun _ _ _ => by simp [lostCell_holder]

theorem pinRelease_portsKept : PortsKept s (pinRelease p args s).state := by
  unfold pinRelease
  repeat' split
  · exact .refl s
  · exact .refl s
  · exact .refl s
  · exact loseClaim_portsKept p s _ _

theorem settingsRelease_portsKept : PortsKept s (settingsRelease p args s).state := by
  unfold settingsRelease
  repeat' split
  · exact .refl s
  · exact .refl s
  · exact ⟨.of_ports rfl fun q hq => ⟨by simp [ok], hq.pins⟩, .of_ports rfl rfl rfl rfl⟩

theorem disciplineProfile_portsKept : PortsKept s (disciplineProfile p args s).state := by
  unfold disciplineProfile
  dsimp only
  repeat' split
  all_goals exact .of_same rfl rfl rfl rfl rfl rfl

theorem disciplineStatus_portsKept : PortsKept s (disciplineStatus p args s).state := by
  unfold disciplineStatus
  split <;> exact .of_same rfl rfl rfl rfl rfl rfl

theorem scheduleOnEdge_portsKept : PortsKept s (scheduleOnEdge p args s).state := by
  unfold scheduleOnEdge
  dsimp only
  repeat' split
  all_goals exact .of_same rfl rfl rfl rfl rfl rfl

theorem scheduleConfigure_portsKept : PortsKept s (scheduleConfigure p args s).state := by
  unfold scheduleConfigure
  dsimp only
  repeat' split
  all_goals exact .of_same rfl rfl rfl rfl rfl rfl

theorem subscribe_portsKept : PortsKept s (subscribe p args s).state := by
  unfold subscribe
  repeat' split
  all_goals exact .of_same rfl rfl rfl rfl rfl rfl

theorem eventRead_portsKept : PortsKept s (eventRead p args s).state := by
  unfold eventRead
  dsimp only
  repeat' split
  all_goals exact .of_same rfl rfl rfl rfl rfl rfl

theorem ringConfigure_portsKept : PortsKept s (ringConfigure p args s).state := by
  unfold ringConfigure ok
  dsimp only
  repeat' split
  all_goals exact .of_same rfl rfl rfl rfl rfl rfl

theorem vectorConfigure_portsKept : PortsKept s (vectorConfigure p args s).state := by
  unfold vectorConfigure
  repeat' split
  all_goals exact .of_same rfl rfl rfl rfl rfl rfl

theorem vectorAck_portsKept : PortsKept s (vectorAck p args s).state := by
  unfold vectorAck
  dsimp only
  repeat' split
  all_goals exact .of_same rfl rfl rfl rfl rfl rfl

theorem notifyControl_portsKept : PortsKept s (notifyControl p args s).state := by
  unfold notifyControl
  repeat' split
  all_goals exact .of_same rfl rfl rfl rfl rfl rfl

theorem faultClear_portsKept : PortsKept s (faultClear p args s).state := by
  unfold faultClear
  repeat' split
  all_goals exact .of_same rfl rfl rfl rfl rfl rfl

theorem faultConfigure_portsKept : PortsKept s (faultConfigure p args s).state := by
  unfold faultConfigure
  repeat' split
  all_goals exact .of_same rfl rfl rfl rfl rfl rfl

theorem faultRecordClear_portsKept : PortsKept s (faultRecordClear p args s).state := by
  unfold faultRecordClear
  repeat' split
  all_goals exact .of_same rfl rfl rfl rfl rfl rfl

theorem writeStore_portsKept (freeze : Bool) : PortsKept s (writeStore p args freeze s).state := by
  unfold writeStore
  repeat' split
  all_goals exact .of_same rfl rfl rfl rfl rfl rfl

end

/-- The commands that move a lease, a line, the supply or the awaited load, or that give a claim. -/
def movesPorts : Instr → Bool
  | .powerOn | .powerLoss | .resetnFall | .resetnRise | .prstnFall _ | .prstnRise _ | .portReset _ _ | .hubReset _ _
  | .settingsLoad _ | .leaseExpiry _ | .leaseSet _ _ | .leaseRenew _ _ | .portLimitsSet _ _ | .pinClaim _ _
  | .settingsClaim _ _ => true
  | _ => false

theorem exec_portsKept {c : Instr} {s t : State} (h : exec c s = .next t) (hc : movesPorts c = false) : PortsKept s t := by
  cases c with
  | powerOn | powerLoss | resetnFall | resetnRise | prstnFall | prstnRise | portReset | hubReset | settingsLoad
  | leaseExpiry | leaseSet | leaseRenew | portLimitsSet | pinClaim | settingsClaim => cases hc
  | advance => exact execAdvance_portsKept h
  | expiry => cases h; exact expiry_portsKept s
  | activeEdge change => cases h; exact activeEdge_portsKept change s
  | miss => cases h; exact miss_portsKept s
  | transition pin level => cases h; exact transition_portsKept pin level s
  | debounceWindowEnd pin level => cases h; exact debounceWindowEnd_portsKept pin level s
  | contentionCheck pin level => cases h; exact contentionCheck_portsKept pin level s
  | storeCompletion verified => cases h; exact storeCompletion_portsKept verified s
  | holdNotice => cases h; exact takeHoldNotice_portsKept s
  | badFrame p bytes trailing => cases h; exact badFrame_portsKept p bytes trailing s
  | unknownRequest p code args => cases h; exact unknownRequest_portsKept p code args s
  | resultRead p => cases h; exact resultRead_portsKept p s
  | identify p args => cases h; exact request_portsKept (.of_eq (identify_state p args s))
  | portStatus p args => cases h; exact request_portsKept (.of_eq (portStatus_state p args s))
  | timeRead p args => cases h; exact request_portsKept (.of_eq (timeRead_state args s))
  | timeReadScaled p args => cases h; exact request_portsKept (.of_eq (timeReadScaled_state args s))
  | timeSet p args => cases h; exact request_portsKept (timeSet_portsKept p args s)
  | refConfigure p args => cases h; exact request_portsKept (refConfigure_portsKept p args s)
  | disciplineProfile p args => cases h; exact request_portsKept (disciplineProfile_portsKept p args s)
  | disciplineStatus p args => cases h; exact request_portsKept (disciplineStatus_portsKept p args s)
  | scheduleAt p args => cases h; exact request_portsKept (scheduleAt_portsKept p args s)
  | scheduleOnEdge p args => cases h; exact request_portsKept (scheduleOnEdge_portsKept p args s)
  | cancel p args => cases h; exact request_portsKept (cancel_portsKept p args s)
  | entryQuery p args => cases h; exact request_portsKept (.of_eq (entryQuery_state p args s))
  | scheduleList p args => cases h; exact request_portsKept (.of_eq (scheduleList_state p args s))
  | hold p args => cases h; exact request_portsKept (hold_portsKept p args s)
  | resume p args => cases h; exact request_portsKept (resume_portsKept p args s)
  | scheduleConfigure p args => cases h; exact request_portsKept (scheduleConfigure_portsKept p args s)
  | pinConfigure p args level => cases h; exact request_portsKept (pinConfigure_portsKept p args s level)
  | pinRelease p args => cases h; exact request_portsKept (pinRelease_portsKept p args s)
  | pinWrite p args => cases h; exact request_portsKept (pinWrite_portsKept p args s)
  | pinRead p args => cases h; exact request_portsKept (.of_eq (pinRead_state args s))
  | subscribe p args => cases h; exact request_portsKept (subscribe_portsKept p args s)
  | eventRead p args => cases h; exact request_portsKept (eventRead_portsKept p args s)
  | ringConfigure p args => cases h; exact request_portsKept (ringConfigure_portsKept p args s)
  | vectorConfigure p args => cases h; exact request_portsKept (vectorConfigure_portsKept p args s)
  | vectorAck p args => cases h; exact request_portsKept (vectorAck_portsKept p args s)
  | notifyControl p args => cases h; exact request_portsKept (notifyControl_portsKept p args s)
  | vectorRead p args => cases h; exact request_portsKept (.of_eq (vectorRead_state p args s))
  | faultRead p args => cases h; exact request_portsKept (.of_eq (faultRead_state args s))
  | faultClear p args => cases h; exact request_portsKept (faultClear_portsKept p args s)
  | faultConfigure p args => cases h; exact request_portsKept (faultConfigure_portsKept p args s)
  | faultRecordClear p args => cases h; exact request_portsKept (faultRecordClear_portsKept p args s)
  | settingsRelease p args => cases h; exact request_portsKept (settingsRelease_portsKept p args s)
  | settingsRead p args => cases h; exact request_portsKept (.of_eq (settingsRead_state args s))
  | storeWrite p args => cases h; exact request_portsKept (writeStore_portsKept p args s _)
  | storeFreeze p args => cases h; exact request_portsKept (writeStore_portsKept p args s _)

/-! ## The commands that move the leases -/

/-- A change of one port, with no port's claims growing but perhaps that port's. -/
theorem LeasesTied_of_upd {s t : State} {p : Port} {f : PortState → PortState} (hs : LeasesTied s)
    (hports : t.ports = s.ports.upd p f) (hothers : ∀ q, q ≠ p → Unclaimed s q → Unclaimed t q)
    (hrange : (s.ports.get p).LeaseInRange → (f (s.ports.get p)).LeaseInRange)
    (hclaims : (f (s.ports.get p)).lease = .expired → Unclaimed t p) : LeasesTied t := by
  refine leasesTied_iff.2 fun q => ?_
  obtain ⟨hq, hlapsed⟩ := leasesTied_iff.1 hs q
  rw [hports]
  by_cases hqp : q = p
  · subst hqp
    rw [Tab.get_upd_self]
    exact ⟨hrange hq, hclaims⟩
  · rw [Tab.get_upd_ne _ _ (Ne.symm hqp)]
    exact ⟨hq, fun h => hothers q hqp (hlapsed h)⟩

/-- Every port's lease begun anew, or taken away. -/
theorem LeasesTied_of_fresh {t : State} (h : ∀ p, (t.ports.get p).LeaseInRange ∧ (t.ports.get p).lease ≠ .expired) :
    LeasesTied t := leasesTied_iff.2 fun p => ⟨(h p).1, fun hexpired => absurd hexpired (h p).2⟩

theorem startLease_leasesTied {p : Port} {ms : Nat} (hms : leaseInRange ms = true) {s : State} (hs : LeasesTied s) :
    LeasesTied (startLease p ms s) :=
  LeasesTied_of_upd hs rfl (fun _ _ hq => ⟨hq.settings, hq.pins⟩) (fun hq => hq.startLease hms _) fun h =>
    absurd h (PortState.startLease_not_expired _ _ _)

theorem leaseSet_leasesTied (p : Port) (args : List Byte) {s : State} (hs : LeasesTied s) :
    LeasesTied (leaseSet p args s).state := by
  unfold leaseSet
  dsimp only
  repeat' split
  · exact hs
  · exact hs
  · next hms => exact startLease_leasesTied (by simpa using hms) hs

theorem leaseRenew_leasesTied (p : Port) (args : List Byte) {s : State} (hs : LeasesTied s) :
    LeasesTied (leaseRenew p args s).state := by
  unfold leaseRenew
  dsimp only
  split
  · exact hs
  · exact startLease_leasesTied (leasesTied_iff.1 hs p).1.period hs

/-- PORT LIMITS SET takes default periods in their range only (R172). -/
theorem portLimitsSet_leasesTied (p : Port) (args : List Byte) {s : State} (hs : LeasesTied s) :
    LeasesTied (portLimitsSet p args s).state := by
  unfold portLimitsSet
  dsimp only
  repeat' split
  · exact hs
  · exact hs
  · exact hs
  · exact hs
  · exact hs
  · next hranges _ _ =>
    simp only [Bool.not_eq_true, Bool.not_eq_false', Bool.and_eq_true] at hranges
    obtain ⟨-, hleases⟩ := hranges
    refine leasesTied_iff.2 fun q => ?_
    obtain ⟨hq, hlapsed⟩ := leasesTied_iff.1 hs q
    simp only [ok, Tab.get_build]
    refine ⟨⟨hq.none_iff, hq.period, ?_⟩, fun h => ⟨(hlapsed h).settings, (hlapsed h).pins⟩⟩
    simpa using List.all_eq_true.1 hleases q (mem_allPorts q)

/-- A claim is refused to a port whose lease is EXPIRED (R78, R169), so it goes to another. -/
theorem LeasesTied_of_claim {s t : State} {p : Port} (hs : LeasesTied s) (hports : t.ports = s.ports)
    (hlapsed : ¬s.leaseExpired p = true) (hothers : ∀ q, q ≠ p → Unclaimed s q → Unclaimed t q) : LeasesTied t := by
  refine leasesTied_iff.2 fun q => ?_
  obtain ⟨hq, hclaims⟩ := leasesTied_iff.1 hs q
  rw [hports]
  refine ⟨hq, fun h => hothers q ?_ (hclaims h)⟩
  rintro rfl
  exact hlapsed (leaseExpired_of_expired h)

theorem pinClaim_leasesTied (p : Port) (args : List Byte) {s : State} (hs : LeasesTied s) :
    LeasesTied (pinClaim p args s).state := by
  unfold pinClaim
  repeat' split
  · exact hs
  · exact hs
  · exact hs
  · exact hs
  · exact hs
  · exact hs
  · next hlapsed _ _ _ =>
    refine LeasesTied_of_claim hs rfl hlapsed fun q hqp hq => ⟨hq.settings, fun k => ?_⟩
    refine upd_related (R := fun c c' : PinCell => c.holder ≠ some q → c'.holder ≠ some q) (fun _ => id) (fun _ => ?_) k
      (hq.pins k)
    simpa using hqp.symm

theorem settingsClaim_leasesTied (p : Port) (args : List Byte) {s : State} (hs : LeasesTied s) :
    LeasesTied (settingsClaim p args s).state := by
  unfold settingsClaim
  repeat' split
  · exact hs
  · exact hs
  · exact hs
  · exact hs
  · exact hs
  · next hlapsed _ _ _ => exact LeasesTied_of_claim hs rfl hlapsed fun q hqp hq => ⟨by simpa [ok] using hqp.symm, hq.pins⟩

/-! ## The loss of every claim -/

/-- A claim released by `p`, of the settings or of a pin. -/
def releasedBy (p : Port) (holder : Option Port) : Option Port := if holder = some p then none else holder

theorem releasedBy_eq_some {p q : Port} {holder : Option Port} : releasedBy p holder = some q ↔ holder = some q ∧ q ≠ p := by
  unfold releasedBy
  split
  next h => simp [h, eq_comm]
  next h =>
    refine ⟨fun hq => ⟨hq, ?_⟩, And.left⟩
    rintro rfl
    exact h hq

/-- From `s` to `t` the port releases every claim, and no other claim changes. -/
structure Released (p : Port) (s t : State) : Prop where
  settings : t.settings.holder = releasedBy p s.settings.holder
  pins : ∀ k, (t.pins.get k).holder = releasedBy p (s.pins.get k).holder

theorem Released.unclaimed {p : Port} {s t : State} (h : Released p s t) : Unclaimed t p where
  settings := by
    rw [h.settings, Ne, releasedBy_eq_some]
    exact fun ⟨_, hne⟩ => hne rfl
  pins k := by
    rw [h.pins, Ne, releasedBy_eq_some]
    exact fun ⟨_, hne⟩ => hne rfl

theorem Released.others {p q : Port} {s t : State} (h : Released p s t) (hq : Unclaimed s q) : Unclaimed t q where
  settings := by
    rw [h.settings, Ne, releasedBy_eq_some]
    exact fun ⟨hheld, _⟩ => hq.settings hheld
  pins k := by
    rw [h.pins, Ne, releasedBy_eq_some]
    exact fun ⟨hheld, _⟩ => hq.pins k hheld

/-- A port that releases every claim, with its own state changed. -/
theorem Released.leasesTied {p : Port} {f : PortState → PortState} {s t : State} (h : Released p s t) (hs : LeasesTied s)
    (hports : t.ports = s.ports.upd p f) (hrange : (s.ports.get p).LeaseInRange → (f (s.ports.get p)).LeaseInRange) :
    LeasesTied t :=
  LeasesTied_of_upd hs hports (fun _ _ => h.others) hrange fun _ => h.unclaimed

/-! ## The expiry of a lease -/

theorem leaseDue_iff {p : Port} {s : State} : s.leaseDue p = true ↔
    s.powered = true ∧ ∃ point, (s.ports.get p).lease = .running point ∧ point ≤ s.time.rt := by
  unfold State.leaseDue
  cases (s.ports.get p).lease <;> simp

theorem leaseReported_pin (p : Port) (s : State) (k : Pin) : (leaseReported p s).pins.get k =
    if (s.pins.get k).holder = some p then lostCell s.time.rt (s.pins.get k) else s.pins.get k := by
  obtain ⟨hpins, -⟩ := leaseReported_claims p s
  rw [hpins, expireClaims_pins p nodup_allPins]
  simp [mem_allPins]

theorem leaseReported_released (p : Port) (s : State) : Released p s (leaseReported p s) where
  settings := by
    rw [(leaseReported_fireOnly p s).settings]
    rfl
  pins k := by
    rw [leaseReported_pin, releasedBy]
    split
    · exact lostCell_holder _ _
    · rfl

theorem leaseExpiry_leasesTied (p : Port) {s : State} (hs : LeasesTied s) : LeasesTied (leaseExpiry p s) := by
  cases hdue : s.leaseDue p with
  | false => rwa [leaseExpiry, hdue]
  | true =>
    obtain ⟨hpowered, point, hlease, hreached⟩ := leaseDue_iff.1 hdue
    rw [leaseExpiry_reached hpowered hlease hreached]
    have hreleased := leaseReported_released p s
    generalize leaseReported p s = reported at hreleased ⊢
    exact Released.leasesTied ⟨hreleased.settings, hreleased.pins⟩ hs (f := fun q => { q with lease := .expired }) rfl
      fun hq => hq.expire hlease

theorem leaseExpiry_doorsKept (p : Port) (s : State) : DoorsKept s (leaseExpiry p s) := by
  cases hdue : s.leaseDue p with
  | false =>
    rw [leaseExpiry, hdue]
    exact .refl s
  | true =>
    obtain ⟨hpowered, point, hlease, hreached⟩ := leaseDue_iff.1 hdue
    rw [leaseExpiry_reached hpowered hlease hreached]
    have hfire := leaseReported_fireOnly p s
    generalize leaseReported p s = reported at hfire ⊢
    exact .of_upd (f := fun q => { q with lease := .expired }) hfire.powered hfire.resetnLow hfire.load rfl ⟨rfl, id, id⟩

/-! ## Resets -/

theorem portResetOf_released (p : Port) (s : State) : Released p s (portResetOf p s) where
  settings := rfl
  pins k := by
    rw [portResetOf_pins, releasedBy]
    split
    next hholder => rw [PinCell.releasePort_of_holder hholder, lostCell_holder]
    next hnot => rw [PinCell.releasePort_of_not_holder hnot]

theorem PortState.LeaseInRange.reset9 {q : PortState} (hq : q.LeaseInRange) (rt : Nat) (loading : Bool) :
    (q.reset9 rt loading).LeaseInRange := by
  have hcleared : PortState.LeaseInRange { q with receiver := .idle, sdo := [], missed := false, result := .empty } :=
    hq.of_same ⟨rfl, rfl, rfl⟩
  cases loading with
  | true => exact hcleared
  | false => exact hcleared.startLease hq.default rt

theorem portResetOf_leasesTied (p : Port) {s : State} (hs : LeasesTied s) : LeasesTied (portResetOf p s) :=
  (portResetOf_released p s).leasesTied hs rfl fun hq => hq.reset9 _ _

theorem pullPrstn_leasesKept (p : Port) (s : State) : LeasesKept s (pullPrstn p s) :=
  ⟨upd_related (fun _ => .of_eq rfl) ⟨rfl, rfl, rfl⟩, fun _ hq => ⟨hq.settings, hq.pins⟩⟩

theorem prstnFall_leasesTied (p : Port) {s : State} (hs : LeasesTied s) : LeasesTied (prstnFall p s) := by
  have hpulled := (pullPrstn_leasesKept p s).leasesTied hs
  unfold prstnFall
  dsimp only
  repeat' split
  · exact hs
  · exact portResetOf_leasesTied p hpulled
  · exact hpulled

theorem prstnRise_leasesTied (p : Port) (begun : Bool) {s : State} (hs : LeasesTied s) :
    LeasesTied (prstnRise p begun s) := by
  unfold prstnRise
  split
  · exact LeasesKept.leasesTied
      ⟨upd_related (fun _ => .of_eq rfl) ⟨rfl, rfl, rfl⟩, fun _ hq => ⟨hq.settings, hq.pins⟩⟩ hs
  · exact hs

theorem portReset_leasesTied {p : Port} {args : List Byte} {s t : State} (h : exec (.portReset p args) s = .next t)
    (hs : LeasesTied s) : LeasesTied t := by
  cases h
  repeat' split
  · exact request_leasesTied hs hs
  · exact portResetOf_leasesTied p hs
  · exact (frameEnd_portsKept p s).leases.leasesTied hs

theorem hubResetAll_leasesTied (byRequest : Bool) {s : State} (hs : LeasesTied s) : LeasesTied (hubResetAll byRequest s) := by
  refine LeasesTied_of_fresh fun p => ?_
  rw [hubResetAll_ports, Tab.get_map]
  exact ⟨⟨by simp [PortState.hubReset], rfl, (leasesTied_iff.1 hs p).1.default⟩, nofun⟩

theorem resetnFall_leasesTied {s : State} (hs : LeasesTied s) : LeasesTied (resetnFall s) := by
  unfold resetnFall
  dsimp only
  repeat' split
  · exact hs
  · exact hubResetAll_leasesTied false hs
  · exact hs

theorem hubReset_leasesTied {p : Port} {args : List Byte} {s t : State} (h : exec (.hubReset p args) s = .next t)
    (hs : LeasesTied s) : LeasesTied t := by
  cases h
  repeat' split
  · exact request_leasesTied hs hs
  · exact hubResetAll_leasesTied true hs
  · exact (frameEnd_portsKept p s).leases.leasesTied hs

theorem powerOnValues_port (s : State) (p : Port) :
    (powerOnValues s).ports.get p = { PortState.reset with prstnLow := (s.ports.get p).prstnLow } := Tab.get_map _ _ _

theorem powerOnValues_leasesTied (s : State) : LeasesTied (powerOnValues s) := by
  refine LeasesTied_of_fresh fun p => ?_
  rw [powerOnValues_port]
  exact ⟨PortState.reset_leaseInRange.of_same ⟨rfl, rfl, rfl⟩, nofun⟩

theorem powerLoss_leasesTied {s : State} (hs : LeasesTied s) : LeasesTied (powerLoss s) := by
  unfold powerLoss
  split
  · exact powerOnValues_leasesTied s
  · exact hs

/-! ## The settings load -/

theorem readImage_leases {bs : List Byte} {w : Settings} (h : readImage bs = some w) : leasesInRange w.leases = true := by
  unfold readImage at h
  dsimp only at h
  repeat' split at h
  · cases h
  · next hrange =>
    cases h
    simp only [Settings.inRange, Bool.and_eq_true] at hrange
    obtain ⟨⟨⟨⟨⟨-, hleases⟩, -⟩, -⟩, -⟩, -⟩ := hrange
    exact hleases
  · cases h
  · cases h

theorem storeImage_leases {image : StoreImage} {w : Settings} (h : image.settings = some w) :
    leasesInRange w.leases = true := by
  cases image with
  | bytes bs => exact readImage_leases h
  | spoiled => cases h

/-- Each port's lease is started from its loaded period (R200). -/
theorem putSettings_leasesTied (kind : LoadKind) {w : Settings} (hw : leasesInRange w.leases = true) (valid : Bool)
    (levels : BitVec 24) (begun : BitVec 4) (s : State) : LeasesTied (putSettings kind w valid levels begun s) := by
  refine LeasesTied_of_fresh fun p => ?_
  have hms : leaseInRange (w.leases.get p) = true := List.all_eq_true.1 hw p (mem_allPorts p)
  have hport : (putSettings kind w valid levels begun s).ports.get p =
      PortState.load s.time.rt (w.leases.get p) (begun.getLsbD p.val) (s.ports.get p) := Tab.get_build _ _
  rw [hport]
  refine ⟨⟨?_, hms, hms⟩, PortState.startLease_not_expired _ _ _⟩
  by_cases h : w.leases.get p = 0 <;> simp [PortState.load, PortState.startLease, h]

theorem settingsLoad_leasesTied (levels : BitVec 24) (begun : BitVec 4) {s : State} (hs : LeasesTied s) :
    LeasesTied (settingsLoad levels begun s) := by
  unfold settingsLoad
  repeat' split
  · exact hs
  · next hw => exact putSettings_leasesTied _ (storeImage_leases hw) _ _ _ s
  · have hbuiltin : leasesInRange Settings.builtin.leases = true := by decide
    exact (PortsKept.of_logOnly (occur_logOnly _ _ _ _)).leases.leasesTied (putSettings_leasesTied _ hbuiltin false _ _ s)
  · exact hs

theorem exec_keeps_leasesTied {c : Instr} {s t : State} (h : exec c s = .next t) (hs : LeasesTied s) : LeasesTied t := by
  cases hc : movesPorts c with
  | false => exact (exec_portsKept h hc).leases.leasesTied hs
  | true =>
    unfold movesPorts at hc
    split at hc
    · cases h; exact powerOnValues_leasesTied s
    · cases h; exact powerLoss_leasesTied hs
    · cases h; exact resetnFall_leasesTied hs
    · cases h; exact hs
    · cases h; exact prstnFall_leasesTied _ hs
    · cases h; exact prstnRise_leasesTied _ _ hs
    · exact portReset_leasesTied h hs
    · exact hubReset_leasesTied h hs
    · cases h; exact settingsLoad_leasesTied _ _ hs
    · cases h; exact leaseExpiry_leasesTied _ hs
    · cases h; exact request_leasesTied hs (leaseSet_leasesTied _ _ hs)
    · cases h; exact request_leasesTied hs (leaseRenew_leasesTied _ _ hs)
    · cases h; exact request_leasesTied hs (portLimitsSet_leasesTied _ _ hs)
    · cases h; exact request_leasesTied hs (pinClaim_leasesTied _ _ hs)
    · cases h; exact request_leasesTied hs (settingsClaim_leasesTied _ _ hs)
    · cases hc

/-! ## The commands that move the receivers -/

/-- The receiver is idle, and misses a frame only where nothing else keeps the port from beginning one. -/
def ReceiverTied (s : State) (q : PortState) : Prop :=
  q.receiver = .idle ∧
    (q.missed = true → s.powered = true ∧ s.resetnLow = false ∧ s.load = none ∧ q.prstnLow = false)

theorem ReceiverTied.of_silent {s : State} {q : PortState} (hidle : q.receiver = .idle) (hmissed : q.missed = false) :
    ReceiverTied s q := ⟨hidle, fun h => absurd (hmissed.symm.trans h) Bool.false_ne_true⟩

/-- Without supply no frame is missed. -/
theorem missed_of_unpowered {s : State} (hs : ReceiversTied s) (h : s.powered = false) (p : Port) :
    (s.ports.get p).missed = false := by
  obtain ⟨-, hmissed⟩ := hs p
  refine Bool.eq_false_of_not_eq_true fun hm => ?_
  rw [h] at hmissed
  exact Bool.false_ne_true (hmissed hm).1

theorem startLease_doorsKept (p : Port) (ms : Nat) (s : State) : DoorsKept s (startLease p ms s) :=
  .of_upd rfl rfl rfl rfl ⟨rfl, id, id⟩

theorem leaseSet_doorsKept (p : Port) (args : List Byte) (s : State) : DoorsKept s (leaseSet p args s).state := by
  unfold leaseSet
  dsimp only
  repeat' split
  · exact .refl s
  · exact .refl s
  · exact startLease_doorsKept _ _ s

theorem leaseRenew_doorsKept (p : Port) (args : List Byte) (s : State) : DoorsKept s (leaseRenew p args s).state := by
  unfold leaseRenew
  dsimp only
  split
  · exact .refl s
  · exact startLease_doorsKept _ _ s

theorem portLimitsSet_doorsKept (p : Port) (args : List Byte) (s : State) : DoorsKept s (portLimitsSet p args s).state := by
  unfold portLimitsSet
  dsimp only
  repeat' split
  · exact .refl s
  · exact .refl s
  · exact .refl s
  · exact .refl s
  · exact .refl s
  · refine ⟨rfl, rfl, rfl, fun q => ?_⟩
    simp only [ok, Tab.get_build]
    exact ⟨rfl, id, id⟩

theorem pinClaim_doorsKept (p : Port) (args : List Byte) (s : State) : DoorsKept s (pinClaim p args s).state := by
  unfold pinClaim
  repeat' split
  all_goals exact .of_ports rfl rfl rfl rfl

theorem settingsClaim_doorsKept (p : Port) (args : List Byte) (s : State) : DoorsKept s (settingsClaim p args s).state := by
  unfold settingsClaim
  repeat' split
  all_goals exact .of_ports rfl rfl rfl rfl

/-- A port reset discards the frame in progress (R195, R196). -/
theorem portResetOf_receiversTied {p : Port} {s : State} (hothers : ∀ q, q ≠ p → ReceiverTied s (s.ports.get q)) :
    ReceiversTied (portResetOf p s) := fun q => by
  by_cases hqp : q = p
  · obtain ⟨hidle, -, hmissed, -⟩ := PortState.reset9_buffer s.time.rt s.load.isSome (s.ports.get p)
    rw [hqp, portResetOf_port]
    exact ReceiverTied.of_silent hidle hmissed
  · rw [portResetOf_otherPort hqp]
    exact hothers q hqp

theorem prstnFall_receiversTied (p : Port) {s : State} (hs : ReceiversTied s) : ReceiversTied (prstnFall p s) := by
  have hothers : ∀ q, q ≠ p → (pullPrstn p s).ports.get q = s.ports.get q := fun q hqp => by
    rw [pullPrstn_ports, Tab.get_upd_ne _ _ (Ne.symm hqp)]
  unfold prstnFall
  dsimp only
  repeat' split
  · exact hs
  · exact portResetOf_receiversTied fun q hqp => by rw [hothers q hqp]; exact hs q
  · next hunpowered =>
    have hpulled : ∀ q, ((pullPrstn p s).ports.get q).receiver = (s.ports.get q).receiver ∧
        ((pullPrstn p s).ports.get q).missed = (s.ports.get q).missed :=
      upd_related (R := fun x y : PortState => y.receiver = x.receiver ∧ y.missed = x.missed) (fun _ => ⟨rfl, rfl⟩) ⟨rfl, rfl⟩
    intro q
    obtain ⟨hreceiver, hmissed⟩ := hpulled q
    exact ReceiverTied.of_silent (hreceiver.trans (hs q).1)
      (hmissed.trans (missed_of_unpowered hs (Bool.eq_false_of_not_eq_true hunpowered) q))

theorem prstnRise_receiversTied (p : Port) (begun : Bool) {s : State} (hs : ReceiversTied s) :
    ReceiversTied (prstnRise p begun s) := by
  unfold prstnRise
  split
  · intro q
    dsimp only
    rw [Tab.get_upd]
    split
    · refine ⟨rfl, fun hmissed => ?_⟩
      simp only [State.portsOpen, Bool.and_eq_true, Bool.not_eq_true', Option.isNone_iff_eq_none] at hmissed
      obtain ⟨-, ⟨hpowered, hresetn⟩, hload⟩ := hmissed
      exact ⟨hpowered, hresetn, hload, rfl⟩
    · exact hs q
  · exact hs

theorem portReset_receiversTied {p : Port} {args : List Byte} {s t : State} (h : exec (.portReset p args) s = .next t)
    (hs : ReceiversTied s) : ReceiversTied t := by
  cases h
  repeat' split
  · exact (request_doorsKept (.refl s)).receiversTied hs
  · exact portResetOf_receiversTied fun q _ => hs q
  · exact (frameEnd_portsKept p s).doors.receiversTied hs

theorem hubResetAll_receiversTied (byRequest : Bool) (s : State) : ReceiversTied (hubResetAll byRequest s) := fun p => by
  rw [hubResetAll_ports, Tab.get_map]
  exact ReceiverTied.of_silent rfl rfl

theorem resetnFall_receiversTied {s : State} (hs : ReceiversTied s) : ReceiversTied (resetnFall s) := by
  unfold resetnFall
  dsimp only
  repeat' split
  · exact hs
  · exact hubResetAll_receiversTied false _
  · next hunpowered =>
    exact fun p => ReceiverTied.of_silent (hs p).1 (missed_of_unpowered hs (Bool.eq_false_of_not_eq_true hunpowered) p)

theorem hubReset_receiversTied {p : Port} {args : List Byte} {s t : State} (h : exec (.hubReset p args) s = .next t)
    (hs : ReceiversTied s) : ReceiversTied t := by
  cases h
  repeat' split
  · exact (request_doorsKept (.refl s)).receiversTied hs
  · exact hubResetAll_receiversTied true s
  · exact (frameEnd_portsKept p s).doors.receiversTied hs

/-- POWER_ON discards the frames in progress (R200). -/
theorem powerOnValues_silent (s : State) (p : Port) :
    ((powerOnValues s).ports.get p).receiver = .idle ∧ ((powerOnValues s).ports.get p).missed = false := by
  rw [powerOnValues_port]
  exact ⟨rfl, rfl⟩

theorem powerOnValues_receiversTied (s : State) : ReceiversTied (powerOnValues s) := fun p =>
  ReceiverTied.of_silent (powerOnValues_silent s p).1 (powerOnValues_silent s p).2

theorem powerLoss_receiversTied {s : State} (hs : ReceiversTied s) : ReceiversTied (powerLoss s) := by
  unfold powerLoss
  split
  · exact fun p => ReceiverTied.of_silent (powerOnValues_silent s p).1 (powerOnValues_silent s p).2
  · exact hs

/-- A frame begun before the load is missed at a port whose PRSTn is high (R199). -/
theorem putSettings_receiversTied (kind : LoadKind) (w : Settings) (valid : Bool) (levels : BitVec 24) (begun : BitVec 4)
    {s : State} (hpowered : s.powered = true) (hresetn : s.resetnLow = false) :
    ReceiversTied (putSettings kind w valid levels begun s) := fun p => by
  have hport : (putSettings kind w valid levels begun s).ports.get p =
      PortState.load s.time.rt (w.leases.get p) (begun.getLsbD p.val) (s.ports.get p) := Tab.get_build _ _
  rw [hport]
  refine ⟨rfl, fun hmissed => ⟨hpowered, hresetn, rfl, ?_⟩⟩
  simp only [PortState.load, PortState.startLease, Bool.and_eq_true, Bool.not_eq_true'] at hmissed
  exact hmissed.2

theorem settingsLoad_receiversTied (levels : BitVec 24) (begun : BitVec 4) {s : State} (hs : ReceiversTied s) :
    ReceiversTied (settingsLoad levels begun s) := by
  unfold settingsLoad
  split
  · exact hs
  · split
    · next hopen =>
      simp only [Bool.and_eq_true, Bool.not_eq_true'] at hopen
      obtain ⟨hpowered, hresetn⟩ := hopen
      split
      · exact putSettings_receiversTied _ _ _ _ _ hpowered hresetn
      · exact (PortsKept.of_logOnly (occur_logOnly _ _ _ _)).doors.receiversTied
          (putSettings_receiversTied _ _ _ _ _ hpowered hresetn)
    · exact hs

/-- The rise of RESETn takes nothing from a port that misses a frame. -/
theorem resetnRise_receiversTied {s : State} (hs : ReceiversTied s) : ReceiversTied { s with resetnLow := false } := fun p => by
  obtain ⟨hidle, hmissed⟩ := hs p
  refine ⟨hidle, fun hm => ?_⟩
  obtain ⟨hpowered, -, hload, hprstn⟩ := hmissed hm
  exact ⟨hpowered, rfl, hload, hprstn⟩

theorem exec_keeps_receiversTied {c : Instr} {s t : State} (h : exec c s = .next t) (hs : ReceiversTied s) :
    ReceiversTied t := by
  cases hc : movesPorts c with
  | false => exact (exec_portsKept h hc).doors.receiversTied hs
  | true =>
    unfold movesPorts at hc
    split at hc
    · cases h; exact powerOnValues_receiversTied s
    · cases h; exact powerLoss_receiversTied hs
    · cases h; exact resetnFall_receiversTied hs
    · cases h; exact resetnRise_receiversTied hs
    · cases h; exact prstnFall_receiversTied _ hs
    · cases h; exact prstnRise_receiversTied _ _ hs
    · exact portReset_receiversTied h hs
    · exact hubReset_receiversTied h hs
    · cases h; exact settingsLoad_receiversTied _ _ hs
    · cases h; exact (leaseExpiry_doorsKept _ s).receiversTied hs
    · cases h; exact (request_doorsKept (leaseSet_doorsKept _ _ s)).receiversTied hs
    · cases h; exact (request_doorsKept (leaseRenew_doorsKept _ _ s)).receiversTied hs
    · cases h; exact (request_doorsKept (portLimitsSet_doorsKept _ _ s)).receiversTied hs
    · cases h; exact (request_doorsKept (pinClaim_doorsKept _ _ s)).receiversTied hs
    · cases h; exact (request_doorsKept (settingsClaim_doorsKept _ _ s)).receiversTied hs
    · cases hc

/-- Settles O60: `exec_keeps_leasesTied` and `exec_keeps_receiversTied` for the command at the front of the queue. -/
theorem everyStepKeepsLeasesAndReceivers : Obligations.EveryStepKeepsLeasesAndReceivers :=
  ⟨fun _ _ => step_keeps (P := LeasesTied) (fun _ _ h => h) exec_keeps_leasesTied,
    fun _ _ => step_keeps (P := ReceiversTied) (fun _ _ h => h) exec_keeps_receiversTied⟩

end Sys2Proof.Machine
end

section
/-! SUPPORT. STORE WRITE and STORE FREEZE check by check, and what the completion of a write leaves: the store state and the image,
the requester's STORE_DONE record and STORE raise, and STORE_WRITE_FAIL (R178 to R180). -/

namespace Sys2Proof.Machine

open Sys2Proof.Safety

/-! ## STORE WRITE and STORE FREEZE -/

section
variable {p : Port} {s : State} {freeze : Bool}

theorem writeStore_of_args {args : List Byte} (h : args ≠ []) : writeStore p args freeze s = refuse s .badArgument := by
  rw [writeStore, if_pos (by simpa using h)]

theorem writeStore_of_not_holder (h : s.settings.holder ≠ some p) : writeStore p [] freeze s = refuse s .notPermitted := by
  rw [writeStore, if_neg (by simp), holdsSettings_of_not_holder h]
  rfl

/-- Checks 3 and 4 of R178, and the start of the write. -/
theorem writeStore_of_holder (h : s.settings.holder = some p) : writeStore p [] freeze s =
    if s.settings.frozen then refuse s .frozen
    else if s.settings.store.isWriting then refuse s .storeBusy
    else ok (startWrite p freeze s) [2#8] := by
  rw [writeStore, if_neg (by simp), holdsSettings_of_holder h]
  rfl

variable (hholder : s.settings.holder = some p)
include hholder

theorem writeStore_of_frozen (h : s.settings.frozen = true) : writeStore p [] freeze s = refuse s .frozen := by
  rw [writeStore_of_holder hholder, if_pos h]

variable (hfrozen : s.settings.frozen = false)
include hfrozen

theorem writeStore_of_busy (h : s.settings.store.isWriting = true) : writeStore p [] freeze s = refuse s .storeBusy := by
  rw [writeStore_of_holder hholder, hfrozen, if_neg Bool.false_ne_true, if_pos h]

theorem writeStore_of_idle (h : s.settings.store.isWriting = false) :
    writeStore p [] freeze s = ok (startWrite p freeze s) [2#8] := by
  rw [writeStore_of_holder hholder, hfrozen, h, if_neg Bool.false_ne_true, if_neg Bool.false_ne_true]

end

/-- The two requests that write the store are one rule with two values of the frozen flag (R178, R180). -/
theorem exec_writeStore {p : Port} {freeze : Bool} {c : List Byte → Instr} {code : Byte}
    (h : freeze = false ∧ c = (fun args => Instr.storeWrite p args) ∧ code = 0x64#8 ∨
      freeze = true ∧ c = (fun args => Instr.storeFreeze p args) ∧ code = 0x65#8) (args : List Byte) (s : State) :
    exec (c args) s = .next (request p code s (writeStore p args freeze)) := by
  rcases h with ⟨rfl, rfl, rfl⟩ | ⟨rfl, rfl, rfl⟩ <;> rfl

/-- Settles O54: `writeStore` check by check, for both requests by `exec_writeStore`. -/
theorem storeWriteTakesASnapshot : Obligations.StoreWriteTakesASnapshot := by
  intro p s freeze c code htakes hrequest
  have hexec := fun args => exec_writeStore hrequest args s
  refine ⟨fun args hargs => ?args, fun hnot => ?notHolder, fun hholder hfrozen => ?frozen,
    fun hholder hfrozen hwriting => ?busy, fun hholder hfrozen hidle => ?passing⟩
  case args => rw [hexec, request_refused htakes (writeStore_of_args hargs)]
  case notHolder => rw [hexec, request_refused htakes (writeStore_of_not_holder hnot)]
  case frozen => rw [hexec, request_refused htakes (writeStore_of_frozen hholder hfrozen)]
  case busy => rw [hexec, request_refused htakes (writeStore_of_busy hholder hfrozen hwriting)]
  case passing =>
    rw [hexec, request_carried htakes (writeStore_of_idle hholder hfrozen hidle)]
    rfl

/-! ## The report to the requester (step 3 of R179) -/

theorem raiseClass_vectors_congr {s t : State} (h : t.vectors = s.vectors) (p : Port) (c : RaiseClass) :
    (raiseClass p c t).vectors = (raiseClass p c s).vectors := by
  simp only [raiseClass, raiseVec_vectors, h]

/-- A report brings no occurrence but RING_OVERFLOW (R128). -/
theorem postStoreDone_count {k : FaultKind} (hk : k ≠ .ringOverflow) (requester : Option Port) (verified : Bool) (s : State) :
    countOf (postStoreDone requester verified s) k = countOf s k := by
  unfold postStoreDone
  split
  · rfl
  · rw [countOf_of_faults (raiseClass_faults _ _ _), post_count hk]

section
variable {p : Port} {s : State} (verified : Bool)

theorem postStoreDone_classRaised : ClassRaised s (postStoreDone (some p) verified s) p .store :=
  ClassRaised_before (raiseClass_classRaised p .store _) (post_raisesKept _ _ s)

variable (hroom : (s.rings.get p).records.length < 32)
include hroom

theorem postStoreDone_appended :
    Appended s (postStoreDone (some p) verified s) p (plainRecord s (.storeDone verified)) :=
  Appended_later (post_appended hroom _) (.of_eq (raiseClass_rings _ _ _))

theorem postStoreDone_otherRing {q : Port} (hqp : q ≠ p) :
    (postStoreDone (some p) verified s).rings.get q = s.rings.get q := by
  rw [postStoreDone, raiseClass_rings, post_of_room hroom, ringPut_rings, Tab.get_set_ne _ _ (Ne.symm hqp)]

theorem postStoreDone_faults : (postStoreDone (some p) verified s).faults = s.faults := by
  rw [postStoreDone, raiseClass_faults, post_of_room hroom, ringPut_faults]

theorem postStoreDone_vectors : (postStoreDone (some p) verified s).vectors =
    (raiseClass p .store (if (s.rings.get p).records.length = (s.rings.get p).mark then
      raiseClass p .ringMark s else s)).vectors := by
  rw [postStoreDone, post_of_room hroom]
  exact raiseClass_vectors_congr (ringPut_vectors_of_room hroom _) _ _

end

/-! ## STORE_COMPLETION -/

/-- The state behind steps 1, 2 and 4 of R179. -/
def writeFinished (verified : Bool) (snapshot : List Byte) (freeze : Bool) (s : State) : State :=
  { s with settings := s.settings.finishWrite verified snapshot freeze }

/-- The state behind the report to the requester. -/
def writeReported (verified : Bool) (snapshot : List Byte) (freeze : Bool) (s : State) : State :=
  postStoreDone s.settings.requester verified (writeFinished verified snapshot freeze s)

section
variable {verified freeze : Bool} {snapshot : List Byte} {takenAt : Nat} {s : State}

theorem exec_storeCompletion (hstore : s.settings.store = .writing snapshot takenAt freeze) (hpowered : s.powered = true)
    (hspan : takenAt + 8000000 ≤ s.time.rt) : exec (.storeCompletion verified) s =
      .next (if verified then writeReported verified snapshot freeze s
        else occur .storeWriteFail none .none (writeReported verified snapshot freeze s)) := by
  have hdue : (s.powered && decide (takenAt + writeMinNs ≤ s.time.rt)) = true := by
    rw [hpowered, Bool.true_and]
    exact decide_eq_true hspan
  change Host.Outcome.next (storeCompletion verified s) = _
  unfold storeCompletion
  rw [hstore]
  dsimp only
  rw [if_pos hdue]
  rfl

theorem writeReported_logOnly : LogOnly (writeFinished verified snapshot freeze s) (writeReported verified snapshot freeze s) :=
  postStoreDone_logOnly _ _ _

theorem writeReported_count {k : FaultKind} (hk : k ≠ .ringOverflow) :
    countOf (writeReported verified snapshot freeze s) k = countOf s k := postStoreDone_count hk _ _ _

theorem writeReported_of_none (h : s.settings.requester = none) :
    writeReported verified snapshot freeze s = writeFinished verified snapshot freeze s := by
  rw [writeReported, h, postStoreDone]

section
variable {p : Port} (hrequester : s.settings.requester = some p)
include hrequester

theorem writeReported_of_requester : writeReported verified snapshot freeze s =
    postStoreDone (some p) verified (writeFinished verified snapshot freeze s) := by
  rw [writeReported, hrequester]

theorem writeReported_classRaised : ClassRaised s (writeReported verified snapshot freeze s) p .store := by
  rw [writeReported_of_requester hrequester]
  exact postStoreDone_classRaised (s := writeFinished verified snapshot freeze s) verified

variable (hroom : (s.rings.get p).records.length < 32)
include hroom

theorem writeReported_appended : Appended s (writeReported verified snapshot freeze s) p
    ⟨.storeDone verified, 0, false, decide (s.disc.state = .locked), s.time.ht, s.time.epoch⟩ := by
  rw [writeReported_of_requester hrequester]
  exact postStoreDone_appended (s := writeFinished verified snapshot freeze s) verified hroom

/-- With room the report changes no other ring and no count, and raises no more than STORE and a crossed mark (R127). -/
theorem writeReported_inRoom :
    (∀ q, q ≠ p → (writeReported verified snapshot freeze s).rings.get q = s.rings.get q) ∧
      (writeReported verified snapshot freeze s).faults = s.faults ∧
      (writeReported verified snapshot freeze s).vectors =
        (raiseClass p .store (if (s.rings.get p).records.length = (s.rings.get p).mark then
          raiseClass p .ringMark s else s)).vectors := by
  rw [writeReported_of_requester hrequester]
  refine ⟨fun q hqp => ?rings, ?faults, ?vectors⟩
  case rings => exact postStoreDone_otherRing (s := writeFinished verified snapshot freeze s) verified hroom hqp
  case faults => exact postStoreDone_faults (s := writeFinished verified snapshot freeze s) verified hroom
  case vectors =>
    refine (postStoreDone_vectors (s := writeFinished verified snapshot freeze s) verified hroom).trans
      (raiseClass_vectors_congr ?_ p .store)
    have hrings : (writeFinished verified snapshot freeze s).rings = s.rings := rfl
    rw [hrings]
    by_cases hmark : (s.rings.get p).records.length = (s.rings.get p).mark
    · rw [if_pos hmark, if_pos hmark]
      rfl
    · rw [if_neg hmark, if_neg hmark]
      rfl

end

end

/-- Settles O55: the steps of R179 up to the report by `writeReported`, and STORE_WRITE_FAIL behind it on failure. -/
theorem storeCompletionVerifiesTheImage : Obligations.StoreCompletionVerifiesTheImage := by
  intro verified freeze snapshot takenAt s hstore hpowered hspan
  rw [exec_storeCompletion hstore hpowered hspan]
  have hcount : countOf (writeReported verified snapshot freeze s) .storeWriteFail = countOf s .storeWriteFail :=
    writeReported_count (by decide)
  cases verified with
  | true =>
    refine ⟨_, .bytes snapshot, rfl, writeReported_logOnly, fun _ => ⟨rfl, hcount⟩, nofun,
      fun p hrequester hroom => writeReported_appended hrequester hroom, fun p hrequester => writeReported_classRaised hrequester,
      fun p hrequester hroom _ => writeReported_inRoom hrequester hroom, fun hnone _ => ?_⟩
    rw [if_pos rfl, writeReported_of_none hnone]
    exact ⟨rfl, rfl⟩
  | false =>
    refine ⟨_, .spoiled, rfl, writeReported_logOnly.trans (occur_logOnly _ _ _ _), nofun, fun _ => ⟨rfl, ?_⟩,
      fun p hrequester hroom => Appended_later (writeReported_appended hrequester hroom) (occur_grow _ _ _ _),
      fun p hrequester => ClassRaised_later (writeReported_classRaised hrequester) (occur_raisesKept _ _ _ _), nofun, nofun⟩
    rw [if_neg Bool.false_ne_true, occur_count (by decide), if_pos rfl, hcount]

end Sys2Proof.Machine
end

section
/-! SUPPORT. The settings image read back: its parts in the order of R175, the fields read from them, and the checks that a valid image
passes (R175, R201, R203). -/

namespace Sys2Proof.Machine

open Sys2Proof.Safety

/-! ## Bytes made of parts -/

/-- What lies within one part of a list of bytes made of parts. -/
theorem drop_take_flatten {parts : List (List Byte)} {i : Nat} {part : List Byte} (hpart : parts[i]? = some part) {off len : Nat}
    (hfit : off + len ≤ part.length) :
    (parts.flatten.drop (((parts.map List.length).take i).sum + off)).take len = (part.drop off).take len := by
  induction parts generalizing i with
  | nil => cases hpart
  | cons first rest ih =>
    cases i with
    | zero =>
      obtain rfl : first = part := Option.some.inj hpart
      have hoff : off ≤ first.length := by omega
      have hlen : len ≤ (first.drop off).length := by rw [List.length_drop]; omega
      rw [List.take_zero, List.sum_nil, Nat.zero_add, List.flatten_cons, List.drop_append_of_le_length hoff,
        List.take_append_of_le_length hlen]
    | succ i =>
      rw [List.map_cons, List.take_succ_cons, List.sum_cons, Nat.add_assoc, List.flatten_cons, ← List.drop_drop, List.drop_left]
      exact ih hpart

/-- A field of a list whose members all give as many bytes. -/
theorem fld_flatMap {α : Type} {f : α → List Byte} {len : Nat} (hf : ∀ x, (f x).length = len) {l : List α} {i : Nat} {x : α}
    (hx : l[i]? = some x) : fld (l.flatMap f) (len * i) len = be (f x) := by
  induction l generalizing i with
  | nil => cases hx
  | cons first rest ih =>
    rw [List.flatMap_cons]
    cases i with
    | zero =>
      obtain rfl : first = x := Option.some.inj hx
      rw [Nat.mul_zero, fld_append_left (by rw [hf, Nat.zero_add]), fld_whole' (hf first)]
    | succ i =>
      rw [fld_append_right (by rw [hf, Nat.mul_succ]; omega), hf, Nat.mul_succ, Nat.add_sub_cancel]
      exact ih hx

theorem getElem?_allPins (k : Pin) : allPins[k.val]? = some k := by
  rw [allPins_eq_finRange]
  simp

/-! ## The parts of the image -/

/-- The byte of the two flags (R175). -/
def Settings.flagByte (w : Settings) : Byte := b1 (bitAt 0 w.safeOnMajor + bitAt 1 w.frozen + 4 * 0)

/-- The bytes of the image that its CRC covers, part by part: the pin map, the quotas and default lease periods, the reference
period and byte, the profile, the late threshold, the masks, the severities, the flags, and the spare bytes (R175). -/
def Settings.bodyParts (w : Settings) : List (List Byte) :=
  [allPins.flatMap fun k => beN 2 (w.pins.get k).word, limitBytes w.quotas w.leases, beN 4 w.ref.trefUs, [w.ref.byte],
    w.profile.bytes, beN 4 w.lateThreshold, beN 2 (kindSet fun k => w.masks.get k),
    beN 2 (kindSet fun k => decide (w.severities.get k = .major)), [w.flagByte], beN 32 0]

/-- The CRC-16 of the body, high byte first (R175). -/
def Settings.crcBytes (w : Settings) : List Byte := beN 2 (crc16 w.bodyParts.flatten).toNat

/-- The parts of the whole image. -/
def Settings.parts (w : Settings) : List (List Byte) := w.bodyParts ++ [w.crcBytes]

theorem Settings.body_eq_flatten (w : Settings) : w.bytes 0 ++ beN 32 0 = w.bodyParts.flatten := by
  simp [Settings.bytes, Settings.bodyParts, Settings.flagByte, limitBytes]

theorem imageOf_eq_body (w : Settings) : imageOf w = w.bodyParts.flatten ++ w.crcBytes := by
  simp only [imageOf, w.body_eq_flatten, Settings.crcBytes]

theorem imageOf_eq_flatten (w : Settings) : imageOf w = w.parts.flatten := by
  rw [imageOf_eq_body, Settings.parts, List.flatten_append, List.flatten_singleton]

theorem Settings.length_bodyParts (w : Settings) : w.bodyParts.map List.length = [48, 12, 4, 1, 20, 4, 2, 2, 1, 32] := by
  simp [Settings.bodyParts, length_limitBytes, Profile.length_bytes, allPins]

theorem Settings.length_parts (w : Settings) : w.parts.map List.length = [48, 12, 4, 1, 20, 4, 2, 2, 1, 32, 2] := by
  rw [Settings.parts, List.map_append, w.length_bodyParts, Settings.crcBytes, List.map_singleton, length_beN]
  rfl

theorem length_body (w : Settings) : w.bodyParts.flatten.length = 126 := by
  rw [List.length_flatten, w.length_bodyParts]
  rfl

theorem length_imageOf (w : Settings) : (imageOf w).length = 128 := by
  rw [imageOf_eq_flatten, List.length_flatten, w.length_parts]
  rfl

/-- Where the parts of the image begin. -/
def partStart (i : Nat) : Nat := ([48, 12, 4, 1, 20, 4, 2, 2, 1, 32, 2].take i).sum

theorem drop_take_imageOf {w : Settings} {i : Nat} {part : List Byte} (hpart : w.parts[i]? = some part) {off len : Nat}
    (hfit : off + len ≤ part.length) : ((imageOf w).drop (partStart i + off)).take len = (part.drop off).take len := by
  rw [imageOf_eq_flatten, partStart, ← w.length_parts]
  exact drop_take_flatten hpart hfit

/-- A field of the image is the field of the part in which it lies. -/
theorem fld_imageOf {w : Settings} {i : Nat} {part : List Byte} (hpart : w.parts[i]? = some part) {off len : Nat}
    (hfit : off + len ≤ part.length) : fld (imageOf w) (partStart i + off) len = fld part off len :=
  congrArg be (drop_take_imageOf hpart hfit)

/-- A number that a part holds. -/
theorem fld_imageOf_beN {w : Settings} {i len n : Nat} (hpart : w.parts[i]? = some (beN len n)) (hn : n < 256 ^ len) :
    fld (imageOf w) (partStart i) len = n := by
  rw [← Nat.add_zero (partStart i), fld_imageOf hpart (by rw [length_beN, Nat.zero_add]), fld_beN, Nat.mod_eq_of_lt hn]

/-- A byte that is a part. -/
theorem fld_imageOf_byte {w : Settings} {i : Nat} {b : Byte} (hpart : w.parts[i]? = some [b]) :
    fld (imageOf w) (partStart i) 1 = b.toNat := by
  rw [← Nat.add_zero (partStart i), fld_imageOf hpart (by simp), fld_cons_zero]

/-! ## Bits -/

theorem bitOf_eq_testBit (n k : Nat) : bitOf n k = n.testBit k := Nat.testBit_eq_decide_div_mod_eq.symm

theorem bitOf_kindSet (f : Fin 11 → Bool) (k : Fin 11) : bitOf (kindSet f) k.val = f k := by
  rw [bitOf_eq_testBit, testBit_kindSet]

theorem kindSet_lt_two_bytes (f : Fin 11 → Bool) : kindSet f < 256 ^ 2 := (kindSet_lt f).trans (by norm_num)

/-- The reference byte holds its three fields, and its spare bits are 0 (R203). -/
theorem RefConfig.byte_bits (c : RefConfig) : c.byte.toNat < 8 ∧ bitOf c.byte.toNat 0 = c.enabled ∧
    bitOf c.byte.toNat 1 = decide (c.edge = .fall) ∧ bitOf c.byte.toNat 2 = c.stepEnable := by
  unfold RefConfig.byte
  generalize decide (c.edge = .fall) = fall
  generalize c.enabled = enabled
  generalize c.stepEnable = stepEnable
  revert fall enabled stepEnable
  decide

/-- The byte of the flags holds the two, and its spare bits are 0 (R175). -/
theorem Settings.flagByte_bits (w : Settings) : w.flagByte.toNat < 4 ∧ bitOf w.flagByte.toNat 0 = w.safeOnMajor ∧
    bitOf w.flagByte.toNat 1 = w.frozen := by
  unfold Settings.flagByte
  generalize w.safeOnMajor = safe
  generalize w.frozen = frozen
  revert safe frozen
  decide

/-! ## The pin map -/

theorem PinMap.word_lt {m : PinMap} (h : m.debounceUs ≤ 1023) : m.word < 256 ^ 2 := by
  have hdir : m.dir.code ≤ 2 := by cases m.dir <;> decide
  have hsafe : bitAt 13 m.safe ≤ 8192 := by cases m.safe <;> decide
  rw [PinMap.word]
  omega

/-- A map entry read from its word (R203). -/
theorem readPinWord_word {m : PinMap} (h : m.debounceUs ≤ 1023) : readPinWord m.word = some m := by
  obtain ⟨dir, safe, debounce⟩ := m
  have hdebounce : debounce ≤ 1023 := h
  have hsafe : bitAt 13 safe = 8192 * safe.toNat := by cases safe <;> rfl
  have hbit : safe.toNat ≤ 1 := Bool.toNat_le safe
  have hword : PinMap.word ⟨dir, safe, debounce⟩ = dir.code * 16384 + 8192 * safe.toNat + debounce := by
    rw [PinMap.word, hsafe]
  have hcode : (dir.code * 16384 + 8192 * safe.toNat + debounce) / 16384 = dir.code := by omega
  have hspare : (dir.code * 16384 + 8192 * safe.toNat + debounce) / 1024 % 8 = 0 := by omega
  have hlevel : (dir.code * 16384 + 8192 * safe.toNat + debounce) / 8192 % 2 = safe.toNat := by omega
  have hlow : (dir.code * 16384 + 8192 * safe.toNat + debounce) % 1024 = debounce := by omega
  have hdir : Direction.ofCode dir.code = some dir := by cases dir <;> rfl
  rw [hword, readPinWord, hcode, hdir]
  dsimp only
  rw [if_pos hspare, hlevel, hlow]
  cases safe <;> rfl

theorem allPresent_of_some {n : Nat} {α : Type} {tab : Tab n (Option α)} {u : Tab n α} (h : ∀ k, tab.get k = some (u.get k)) :
    allPresent tab = some u := by
  have hsome : ∀ k, (tab.get k).isSome := fun k => by rw [h]; rfl
  rw [allPresent, dif_pos hsome, Option.some_inj]
  refine Tab.ext_get fun k => ?_
  rw [Tab.get_build]
  simp only [h, Option.get_some]

theorem fld_imageOf_pin {w : Settings} (k : Pin) (h : (w.pins.get k).debounceUs ≤ 1023) :
    fld (imageOf w) (2 * k.val) 2 = (w.pins.get k).word := by
  have hbytes : ∀ k : Pin, (beN 2 (w.pins.get k).word).length = 2 := fun _ => length_beN _ _
  have hlength : (allPins.flatMap fun k => beN 2 (w.pins.get k).word).length = 48 := by simp [allPins]
  have hfield := fld_imageOf (w := w) (i := 0) (off := 2 * k.val) (len := 2) rfl (by rw [hlength]; omega)
  rw [fld_flatMap hbytes (getElem?_allPins k), be_beN_of_lt (PinMap.word_lt h)] at hfield
  rwa [partStart, List.take_zero, List.sum_nil, Nat.zero_add] at hfield

theorem imageOf_pins {w : Settings} (h : ∀ k, (w.pins.get k).debounceUs ≤ 1023) :
    allPresent (.build fun k : Fin 24 => readPinWord (fld (imageOf w) (2 * k.val) 2)) = some w.pins :=
  allPresent_of_some fun k => by rw [Tab.get_build, fld_imageOf_pin k (h k), readPinWord_word (h k)]

/-! ## The other fields -/

/-- Whatever lies in the quotas and default lease periods. -/
theorem fld_imageOf_limits {w : Settings} {off len : Nat} (h : off + len ≤ 12) :
    fld (imageOf w) (48 + off) len = fld (limitBytes w.quotas w.leases) off len :=
  fld_imageOf (i := 1) rfl (by rwa [length_limitBytes])

theorem imageOf_quotas {w : Settings} (h : quotasInRange w.quotas = true) :
    (.build fun p => fld (imageOf w) (48 + p.val) 1 : Tab 4 Nat) = w.quotas := by
  refine Eq.trans (Tab.ext_get fun p => ?_) (quotasAt_limitBytes h w.leases)
  rw [quotasAt, Tab.get_build, Tab.get_build]
  exact fld_imageOf_limits (by omega)

theorem imageOf_leases {w : Settings} (h : leasesInRange w.leases = true) :
    (.build fun p => fld (imageOf w) (52 + 2 * p.val) 2 : Tab 4 Nat) = w.leases := by
  refine Eq.trans (Tab.ext_get fun p => ?_) (leasesAt_limitBytes h w.quotas)
  rw [leasesAt, Tab.get_build, Tab.get_build, ← fld_imageOf_limits (by omega), ← Nat.add_assoc]

theorem imageOf_refByte (w : Settings) : fld (imageOf w) 64 1 = w.ref.byte.toNat := fld_imageOf_byte (i := 3) rfl

theorem imageOf_ref {w : Settings} (h : w.ref.trefUs ≤ 1000000) :
    (⟨bitOf (fld (imageOf w) 64 1) 0, fld (imageOf w) 60 4, if bitOf (fld (imageOf w) 64 1) 1 then .fall else .rise,
      bitOf (fld (imageOf w) 64 1) 2⟩ : RefConfig) = w.ref := by
  have htref : fld (imageOf w) 60 4 = w.ref.trefUs := fld_imageOf_beN (i := 2) rfl (by omega)
  obtain ⟨-, henabled, hedge, hstep⟩ := w.ref.byte_bits
  have hread : (if decide (w.ref.edge = .fall) = true then Edge.fall else .rise) = w.ref.edge := by
    cases w.ref.edge <;> rfl
  rw [htref, imageOf_refByte, henabled, hedge, hstep, hread]

theorem imageOf_profile {w : Settings} (h : w.profile.inRange = true) : profileAt (imageOf w) 65 = w.profile := by
  have hfield : ∀ off, off + 4 ≤ 20 → fld (imageOf w) (65 + off) 4 = fld w.profile.bytes off 4 := fun off hoff =>
    fld_imageOf (i := 4) rfl (by rwa [Profile.length_bytes])
  refine Eq.trans ?_ (profileAt_bytes h)
  simp only [profileAt, Nat.zero_add]
  rw [← hfield 0 (by omega), ← hfield 4 (by omega), ← hfield 8 (by omega), ← hfield 12 (by omega), ← hfield 16 (by omega)]

theorem imageOf_maskBits (w : Settings) : fld (imageOf w) 89 2 = kindSet fun k => w.masks.get k :=
  fld_imageOf_beN (i := 6) rfl (kindSet_lt_two_bytes _)

theorem imageOf_masks (w : Settings) : (.build fun k => bitOf (fld (imageOf w) 89 2) k.val : Tab 11 Bool) = w.masks := by
  refine Tab.ext_get fun k => ?_
  rw [Tab.get_build, imageOf_maskBits, bitOf_kindSet]

theorem imageOf_severityBits (w : Settings) :
    fld (imageOf w) 91 2 = kindSet fun k => decide (w.severities.get k = .major) :=
  fld_imageOf_beN (i := 7) rfl (kindSet_lt_two_bytes _)

theorem imageOf_severities (w : Settings) :
    (.build fun k => if bitOf (fld (imageOf w) 91 2) k.val then .major else .minor : Tab 11 Severity) = w.severities := by
  refine Tab.ext_get fun k => ?_
  rw [Tab.get_build, imageOf_severityBits, bitOf_kindSet]
  cases w.severities.get k <;> rfl

theorem imageOf_flags (w : Settings) : fld (imageOf w) 93 1 = w.flagByte.toNat := fld_imageOf_byte (i := 8) rfl

/-! ## The checks of a valid image -/

theorem imageOf_crc (w : Settings) : fld (imageOf w) 126 2 = (crc16 ((imageOf w).take 126)).toNat := by
  rw [imageOf_eq_body, List.take_left' (length_body w), ← imageOf_eq_body]
  exact fld_imageOf_beN (i := 10) rfl (crc16 w.bodyParts.flatten).isLt

theorem imageOf_spareBytes (w : Settings) : ((imageOf w).drop 94).take 32 = beN 32 0 := by
  have hpart : w.parts[9]? = some (beN 32 0) := rfl
  exact (drop_take_imageOf hpart (off := 0) (by rw [length_beN])).trans (by decide)

theorem imageOf_spareBitsClear (w : Settings) : spareBitsClear (imageOf w) = true := by
  have href : w.ref.byte.toNat < 8 := w.ref.byte_bits.1
  have hflags : w.flagByte.toNat < 4 := w.flagByte_bits.1
  have hkinds : ∀ f, kindSet f < 2048 := kindSet_lt
  have hzero : (beN 32 0).all (fun b => decide (b = 0#8)) = true := by decide
  simp only [spareBitsClear, imageOf_refByte, imageOf_maskBits, imageOf_severityBits, imageOf_flags, imageOf_spareBytes,
    decide_eq_true href, decide_eq_true hflags, decide_eq_true (hkinds _), hzero, Bool.and_self]

section
variable {w : Settings} (hw : InRange w)
include hw

theorem profile_inRange : w.profile.inRange = true := by
  simpa [Profile.inRange] using hw.profile

theorem settings_inRange : w.inRange = true := by
  obtain ⟨hlow, hhigh⟩ := hw.tref
  simp only [Settings.inRange, quotasInRange_iff.2 hw.quotaSum, leasesInRange_iff.2 hw.leases, decide_eq_true hlow,
    decide_eq_true hhigh, profile_inRange hw, decide_eq_true hw.lateThreshold, Bool.and_self]

theorem settingsAt_imageOf : settingsAt (imageOf w) w.pins = w := by
  have hlate : fld (imageOf w) 85 4 = w.lateThreshold :=
    fld_imageOf_beN (i := 5) rfl (by have := hw.lateThreshold; omega)
  obtain ⟨-, hsafe, hfrozen⟩ := w.flagByte_bits
  rw [settingsAt, imageOf_quotas (quotasInRange_iff.2 hw.quotaSum), imageOf_leases (leasesInRange_iff.2 hw.leases),
    imageOf_ref hw.tref.2, imageOf_profile (profile_inRange hw), hlate, imageOf_masks, imageOf_severities, imageOf_flags, hsafe, hfrozen]

theorem readImage_imageOf : readImage (imageOf w) = some w := by
  rw [readImage, if_pos ⟨length_imageOf w, imageOf_crc w, imageOf_spareBitsClear w⟩, imageOf_pins hw.debounce]
  dsimp only
  rw [settingsAt_imageOf hw, if_pos (settings_inRange hw)]

end

/-- Settles O6: the image's length from those of its parts, and its reading back by `readImage_imageOf`. -/
theorem imageOfSettingsReadsBack : Obligations.ImageOfSettingsReadsBack :=
  fun w hw => ⟨length_imageOf w, readImage_imageOf hw⟩

end Sys2Proof.Machine
end

section
/-! SUPPORT. Frames at a master port: a request frame reads back as its request, a frame without one, and what a RESULT READ shifts
out (R183 to R188, R202, R203). -/

namespace Sys2Proof.Machine

open Sys2Proof.Safety

/-! ## A request frame reads back -/

theorem requestFrame_eq (code : Byte) (args : List Byte) : requestFrame code args =
    code :: b1 args.length :: (args ++ [crc8 (code :: b1 args.length :: args)]) := rfl

/-- A frame with up to 60 argument bytes, of which all were received, meets R184. -/
theorem goodFrame_requestFrame (code : Byte) {args : List Byte} (h : args.length ≤ 60) :
    goodFrame (requestFrame code args) 0 = true := by
  have hlength : (b1 args.length).toNat = args.length := by rw [toNat_b1, Nat.mod_eq_of_lt (by omega)]
  have hwhole : (requestFrame code args).length = 3 + (b1 args.length).toNat := by
    rw [hlength, requestFrame]
    simp
    omega
  have hcrc : (requestFrame code args).getLast? = some (crc8 (requestFrame code args).dropLast) := by
    simp only [requestFrame, List.getLast?_concat, List.dropLast_concat]
  rw [requestFrame_eq] at hwhole hcrc ⊢
  rw [goodFrame, decide_eq_true hwhole, decide_eq_true hcrc, hlength, decide_eq_true h]
  rfl

theorem isResultRead_requestFrame {code : Byte} (h : code ≠ 0x00#8) (args : List Byte) :
    isResultRead (requestFrame code args) = false := by
  simpa [isResultRead, requestFrame] using h

theorem commandOfFrame_requestFrame {code : Byte} (hcode : code ≠ 0x00#8) {args : List Byte} (hargs : args.length ≤ 60)
    (p : Port) (level : Level) : commandOfFrame p (requestFrame code args) 0 level = requestOf p code args level := by
  unfold commandOfFrame
  rw [isResultRead_requestFrame hcode, goodFrame_requestFrame code hargs, requestFrame_eq,
    if_neg Bool.false_ne_true, if_pos rfl]
  exact congrArg (requestOf p code · level) List.dropLast_concat

/-- A code outside R203 is UNKNOWN_REQUEST (R186). -/
theorem requestOf_unknown {code : Byte} (h : requestCodes.contains code = false) (p : Port) (args : List Byte) (level : Level) :
    requestOf p code args level = .unknownRequest p code args := by
  have hne : ∀ known ∈ requestCodes, code ≠ known := by
    rintro known hknown rfl
    exact Bool.false_ne_true (h.symm.trans (List.contains_iff_mem.2 hknown))
  simp (disch := decide) only [requestOf, hne, if_false]

/-- A well-formed request command has a code other than that of RESULT READ, and 60 argument bytes at the most (R183, R184). -/
theorem request_wf {c : Instr} {p : Port} {code : Byte} {args : List Byte} (hwf : c.wf = true)
    (h : c.request? = some (p, code, args)) : code ≠ 0x00#8 ∧ args.length ≤ 60 := by
  cases c with
  | unknownRequest =>
    cases h
    simp only [Instr.wf, Bool.and_eq_true, decide_eq_true_eq] at hwf
    obtain ⟨⟨hargs, hcode⟩, -⟩ := hwf
    exact ⟨hcode, of_decide_eq_true hargs⟩
  | _ => cases h <;> exact ⟨by decide, of_decide_eq_true hwf⟩

/-- The code of a well-formed request, with the level that a PIN CONFIGURE carries, gives the request (R186, R203). -/
theorem requestOf_request {c : Instr} {p : Port} {code : Byte} {args : List Byte} (hwf : c.wf = true)
    (h : c.request? = some (p, code, args)) : requestOf p code args c.pinLevel = c := by
  cases c with
  | unknownRequest =>
    cases h
    simp only [Instr.wf, Bool.and_eq_true, Bool.not_eq_true'] at hwf
    obtain ⟨-, hunknown⟩ := hwf
    exact requestOf_unknown hunknown _ _ _
  | _ => cases h <;> rfl

/-- Settles O7: the frame is good, and its code gives the request. -/
theorem frameOfRequestReadsBack : Obligations.FrameOfRequestReadsBack := by
  intro c p bytes hwf hframe
  simp only [Instr.frame?, Option.map_eq_some_iff, Prod.mk.injEq] at hframe
  obtain ⟨⟨p, code, args⟩, hrequest, rfl, rfl⟩ := hframe
  obtain ⟨hcode, hargs⟩ := request_wf hwf hrequest
  rw [commandOfFrame_requestFrame hcode hargs, requestOf_request hwf hrequest]

/-! ## Frames without a request -/

theorem exec_unknownRequest {p : Port} {code : Byte} {args : List Byte} (hwf : (Instr.unknownRequest p code args).wf = true)
    (s : State) : exec (.unknownRequest p code args) s = .next (request p code s fun s => refuse s .unknownRequest) := by
  simp only [Instr.wf, Bool.and_eq_true, decide_eq_true_eq, Bool.not_eq_true'] at hwf
  obtain ⟨⟨-, hcode⟩, hunknown⟩ := hwf
  change Host.Outcome.next (unknownRequest p code args s) = _
  rw [unknownRequest, hunknown, decide_eq_false hcode]
  simp

theorem exec_badFrame {p : Port} {bytes : List Byte} {trailing : Nat} (hwf : (Instr.badFrame p bytes trailing).wf = true)
    {s : State} (htakes : s.takesFrames p = true) : exec (.badFrame p bytes trailing) s =
      .next (occur .frameError (some p) (.frame (frameByte bytes 0) (frameByte bytes 1) (frameByte bytes 2) (frameByte bytes 3))
        (answer p ⟨.badFrame, frameByte bytes 0, []⟩ s)) := by
  simp only [Instr.wf, Bool.and_eq_true, Bool.not_eq_true'] at hwf
  obtain ⟨⟨-, hread⟩, hbad⟩ := hwf
  change Host.Outcome.next (badFrame p bytes trailing s) = _
  rw [badFrame, if_pos htakes, hread, hbad, answer_receive]
  rfl

/-- Settles O8: the rule of an unknown request, and the FRAME_ERROR occurrence from the answered state on. -/
theorem framesWithoutARequest : Obligations.FramesWithoutARequest := by
  intro p s htakes
  refine ⟨fun code args hwf => ?unknown, fun bytes trailing hwf => ?bad⟩
  case unknown => rw [exec_unknownRequest hwf, request_refused htakes rfl]
  case bad =>
    refine ⟨_, exec_badFrame hwf htakes, rfl, ?_, occur_logOnly _ _ _ _⟩
    rw [occur_count (by decide), if_pos rfl, countOf_of_faults (answer_faults _ _ _)]

/-! ## RESULT READ -/

/-- The six port flags, one bit each (R188, R202). -/
def flagOf (p : Port) (s : State) : Fin 6 → Bool
  | 0 => (s.vectors.get p).notifynLow
  | 1 => decide (1 ≤ (s.rings.get p).records.length)
  | 2 => s.holdsSettings p
  | 3 => s.faults.faultnLow
  | 4 => s.leaseExpired p
  | 5 => s.sched.held

theorem portFlags_eq_ofBits (p : Port) (s : State) : portFlags p s = b1 (Nat.ofBits (flagOf p s)) := by
  rw [portFlags, ← sum_bitAt_eq_ofBits]
  simp [List.finRange_succ, flagOf, Nat.add_assoc]

theorem portFlags_bit (p : Port) (s : State) (k : Fin 6) : (portFlags p s).getLsbD k.val = flagOf p s k := by
  have hk : k.val < 8 := by omega
  rw [portFlags_eq_ofBits, b1, BitVec.getLsbD_ofNat, decide_eq_true hk, Bool.true_and, Nat.testBit_ofBits_lt _ _ k.isLt]

/-- Bits 6 and 7 carry no flag and are 0. -/
theorem portFlags_spare (p : Port) (s : State) {k : Nat} (h : 6 ≤ k) : (portFlags p s).getLsbD k = false := by
  rw [portFlags_eq_ofBits, b1, BitVec.getLsbD_ofNat, Nat.testBit_ofBits_ge _ _ h, Bool.and_false]

/-- What a RESULT READ shifts out before the CRC-8: status, echoed code, port flags, length, data (R187). -/
def resultBody (p : Port) (s : State) : List Byte :=
  [b1 (s.ports.get p).result.status.code, (s.ports.get p).result.code, portFlags p s, b1 (s.ports.get p).result.data.length] ++
    (s.ports.get p).result.data

theorem resultBytes_eq (p : Port) (s : State) : resultBytes p s = resultBody p s ++ [crc8 (resultBody p s)] := rfl

/-- A port after the end of a RESULT READ: the ones of the first byte, and the buffer with the CRC-8 (R183, R187). -/
def readPort (p : Port) (s : State) : PortState :=
  { s.ports.get p with sdo := 0xFF#8 :: resultBody p s ++ [crc8 (resultBody p s)] }

theorem takesFrames_idle {p : Port} {s : State} (h : s.takesFrames p = true) :
    (s.ports.get p).receiver = .idle ∧ (s.ports.get p).missed = false := by
  simp only [State.takesFrames, Bool.and_eq_true, decide_eq_true_eq, Bool.not_eq_true'] at h
  obtain ⟨⟨-, hidle⟩, hmissed⟩ := h
  exact ⟨hidle, hmissed⟩

/-- What was shifted out is through at the end of the frame, and only the record of it is left. -/
theorem exec_resultRead {p : Port} {s : State} (h : s.takesFrames p = true) :
    exec (.resultRead p) s = .next { s with ports := s.ports.set p (readPort p s) } := by
  obtain ⟨hidle, hmissed⟩ := takesFrames_idle h
  have hports : (frameEnd p (shiftOut p s)).ports = s.ports.set p (readPort p s) := by
    refine Tab.ext_get fun q => ?_
    simp only [frameEnd, shiftOut, Tab.get_upd, Tab.get_set, resultBytes_eq]
    split
    · rw [← hidle, ← hmissed]; rfl
    · rfl
  change Host.Outcome.next (resultRead p s) = _
  rw [resultRead, if_pos h, ← hports]
  rfl

/-- Settles O9: what `exec_resultRead` leaves on SDO_p byte by byte, and the flags bit by bit. -/
theorem resultReadShiftsOutTheBuffer : Obligations.ResultReadShiftsOutTheBuffer := by
  intro p s htakes
  obtain ⟨hidle, -⟩ := takesFrames_idle htakes
  refine ⟨portFlags p s, resultBody p s, _, exec_resultRead htakes, rfl, ?_⟩
  rw [Tab.get_set_self]
  refine ⟨hidle, rfl, fun k hk => ?body, ?crc, fun k hk => ?after, rfl, portFlags_bit p s 0, ?_, ?_, portFlags_bit p s 3, ?_,
    portFlags_bit p s 5, portFlags_spare p s (by omega), portFlags_spare p s (by omega)⟩
  case body => simp [readPort, PortState.sdoByte, List.getElem?_append_left hk, List.getElem?_eq_getElem hk]
  case crc => simp [readPort, PortState.sdoByte]
  case after => exact List.getD_eq_default _ _ (by simp [readPort]; omega)
  · exact (Bool.eq_iff_iff.1 (portFlags_bit p s 1)).trans decide_eq_true_iff
  · exact (Bool.eq_iff_iff.1 (portFlags_bit p s 2)).trans decide_eq_true_iff
  · exact (Bool.eq_iff_iff.1 (portFlags_bit p s 4)).trans decide_eq_true_iff
end Sys2Proof.Machine
end

section
/-! SUPPORT. What every request keeps to: the end of its frame where the port takes none, the echoed code, the length check and the
claim check before every other, and a refusal that changes only the buffer (R183, R186, R195, R199, R202, R203). -/

namespace Sys2Proof.Machine

open Sys2Proof.Safety

/-! ## What a request's rule answers -/

/-- The statuses of a refusal that carries no data: all but OK, NONE, HELD_BY and BACKWARD (R202). -/
def plainRefusal : Status → Bool
  | .ok | .none | .heldBy | .backward => false
  | _ => true

theorem ne_of_plainRefusal {st st' : Status} (h : plainRefusal st = true) (h' : plainRefusal st' = false) : st ≠ st' := by
  rintro rfl
  exact Bool.false_ne_true (h'.symm.trans h)

/-- A rule carries its request out, or refuses it and leaves the state (00_scope.md, Requests and results; R202). -/
inductive Answered (s : State) : Reply → Prop
  | carried (u : State) (data : List Byte) : Answered s (ok u data)
  | refused {st : Status} (h : plainRefusal st = true) : Answered s (refuse s st)
  | heldBy (holder : Port) : Answered s (refuseHeldBy s holder)
  | backward : Answered s ⟨s, .backward, beN 8 s.time.ht⟩

theorem Answered.ite {s : State} {c : Prop} [Decidable c] {r r' : Reply} (h : Answered s r) (h' : Answered s r') :
    Answered s (if c then r else r') := by
  split
  · exact h
  · exact h'

/-- What a request with this code leaves, from the state `s` that it was taken in to `t`. -/
structure Settled (p : Port) (code : Byte) (args : List Byte) (s t : State) : Prop where
  idle : (t.ports.get p).receiver = .idle
  ones : ∀ k, (t.ports.get p).sdoByte k = 0xFF#8
  resets : (t.ports.get p).result.status = .none → code = 0x03#8 ∨ code = 0x66#8
  echo : (t.ports.get p).result.status ≠ .none → (t.ports.get p).result.code = code
  refused : (t.ports.get p).result.status ≠ .none → (t.ports.get p).result.status ≠ .ok →
    t = answer p (t.ports.get p).result s ∧
      match (t.ports.get p).result.status with
      | .heldBy => (t.ports.get p).result.data.length = 1
      | .backward => (t.ports.get p).result.data = beN 8 s.time.ht
      | _ => (t.ports.get p).result.data = []
  checks : ∀ n, requestLength code = some n →
    (args.length ≠ n → t = answer p ⟨.badArgument, code, []⟩ s) ∧
    (args.length = n → needsSettings code = true → s.settings.holder ≠ some p → t = answer p ⟨.notPermitted, code, []⟩ s)

/-- The rule of a request with this code answers as every rule does, and makes its two first checks. -/
structure RuleKept (p : Port) (code : Byte) (args : List Byte) (s : State) (r : Reply) : Prop where
  answered : Answered s r
  length : ∀ n, requestLength code = some n → args.length ≠ n → r = refuse s .badArgument
  claim : ∀ n, requestLength code = some n → args.length = n → needsSettings code = true → s.settings.holder ≠ some p →
    r = refuse s .notPermitted

section
variable {p : Port} {code : Byte} {args : List Byte} {s : State}

/-- A rule whose first check is that of its length, for a request that asks for no claim. -/
theorem RuleKept.of_length {n : Nat} (hlength : requestLength code = some n) (hclaim : needsSettings code = false) {r : Reply}
    (h : Answered s r) : RuleKept p code args s (if args.length ≠ n then refuse s .badArgument else r) where
  answered := .ite (.refused rfl) h
  length m hm hne := by
    cases hlength.symm.trans hm
    exact if_pos hne
  claim _ _ _ hneeds := absurd (hclaim.symm.trans hneeds) Bool.false_ne_true

/-- A rule whose first checks are those of its length and of the settings claim. -/
theorem RuleKept.of_claim {n : Nat} (hlength : requestLength code = some n) {r : Reply} (h : Answered s r) :
    RuleKept p code args s (if args.length ≠ n then refuse s .badArgument
      else if !s.holdsSettings p then refuse s .notPermitted else r) where
  answered := .ite (.refused rfl) (.ite (.refused rfl) h)
  length m hm hne := by
    cases hlength.symm.trans hm
    exact if_pos hne
  claim m hm heq _ hnot := by
    cases hlength.symm.trans hm
    rw [if_neg (not_not_intro heq), holdsSettings_of_not_holder hnot]
    rfl

/-- A rule for a code that has no one length. -/
theorem RuleKept.of_any (hlength : requestLength code = none) {r : Reply} (h : Answered s r) : RuleKept p code args s r where
  answered := h
  length m hm := by cases hlength.symm.trans hm
  claim m hm := by cases hlength.symm.trans hm

theorem answer_port (p : Port) (r : Result) (s : State) :
    (answer p r s).ports.get p = { s.ports.get p with receiver := .idle, sdo := [], result := r } := by
  rw [answer_ports, Tab.get_upd_self]

theorem RuleKept.settled {r : Reply} (h : RuleKept p code args s r) :
    Settled p code args s (answer p ⟨r.status, code, r.data⟩ r.state) where
  idle := by rw [answer_port]
  ones k := by rw [answer_port]; rfl
  resets hnone := by
    rw [answer_port] at hnone
    cases h.answered with
    | refused hplain => exact absurd hnone (ne_of_plainRefusal hplain rfl)
    | _ => cases hnone
  echo _ := by rw [answer_port]
  refused hnone hok := by
    rw [answer_port] at hnone hok ⊢
    cases h.answered with
    | carried => exact absurd rfl hok
    | heldBy => exact ⟨rfl, rfl⟩
    | backward => exact ⟨rfl, rfl⟩
    | refused hplain =>
      refine ⟨rfl, ?_⟩
      split
      next hheld => exact absurd hheld (ne_of_plainRefusal hplain rfl)
      next hback => exact absurd hback (ne_of_plainRefusal hplain rfl)
      next => rfl
  checks n hn := by
    refine ⟨fun hne => ?_, fun heq hneeds hnot => ?_⟩
    · rw [h.length n hn hne]; rfl
    · rw [h.claim n hn heq hneeds hnot]; rfl

end

/-! ## The rules -/

/-- The checks that both admissions share refuse without data (R42, R109). -/
theorem plainRefusal_of_admissionChecks {p : Port} {a : Admission} {s : State} {st : Status}
    (h : admissionChecks p a s = .error st) : plainRefusal st = true := by
  have hrest : admissionChecks.tagAndSlot p a s = .error st → plainRefusal st = true := by
    unfold admissionChecks.tagAndSlot
    repeat' split
    · rintro ⟨⟩; rfl
    · rintro ⟨⟩; rfl
    · rintro ⟨⟩; rfl
    · rintro ⟨⟩
  unfold admissionChecks at h
  repeat' split at h
  · cases h; rfl
  · cases h; rfl
  · exact hrest h
  · exact hrest h

section
variable (p : Port) (args : List Byte) (s : State)

theorem identify_kept : RuleKept p 0x01#8 args s (identify p args s) := .of_length rfl rfl (.carried _ _)

theorem portStatus_kept : RuleKept p 0x02#8 args s (portStatus p args s) := .of_length rfl rfl (.carried _ _)

theorem leaseSet_kept : RuleKept p 0x04#8 args s (leaseSet p args s) :=
  .of_length rfl rfl (.ite (.refused rfl) (.carried _ _))

theorem leaseRenew_kept : RuleKept p 0x05#8 args s (leaseRenew p args s) := .of_length rfl rfl (.carried _ _)

theorem timeRead_kept : RuleKept p 0x10#8 args s (timeRead args s) := .of_length rfl rfl (.carried _ _)

theorem timeReadScaled_kept : RuleKept p 0x11#8 args s (timeReadScaled args s) :=
  .of_length rfl rfl (.ite (.refused rfl) (.carried _ _))

theorem timeSet_kept : RuleKept p 0x12#8 args s (timeSet p args s) :=
  .of_claim rfl (.ite (.refused rfl) (.ite (.refused rfl) (.ite .backward (.carried _ _))))

theorem refConfigure_kept : RuleKept p 0x18#8 args s (refConfigure p args s) := by
  refine .of_claim rfl ?_
  cases readRefConfig args with
  | none => exact .refused rfl
  | some c => exact .carried _ _

theorem disciplineProfile_kept : RuleKept p 0x19#8 args s (disciplineProfile p args s) :=
  .of_claim rfl (.ite (.refused rfl) (.carried _ _))

theorem disciplineStatus_kept : RuleKept p 0x1A#8 args s (disciplineStatus p args s) := .of_length rfl rfl (.carried _ _)

theorem scheduleAt_kept : RuleKept p 0x20#8 args s (scheduleAt p args s) := by
  refine .of_any rfl (.ite (.refused rfl) (.ite (.refused rfl) ?_))
  cases readScheduleAt args with
  | none => exact .refused rfl
  | some a =>
    dsimp only
    cases hchecks : admissionChecks p a s with
    | error st => exact .refused (plainRefusal_of_admissionChecks hchecks)
    | ok slot => exact .carried _ _

theorem scheduleOnEdge_kept : RuleKept p 0x21#8 args s (scheduleOnEdge p args s) := by
  refine .of_any rfl (.ite (.refused rfl) ?_)
  cases readScheduleOnEdge args with
  | none => exact .refused rfl
  | some a =>
    refine .ite (.refused rfl) ?_
    cases hchecks : admissionChecks p a s with
    | error st => exact .refused (plainRefusal_of_admissionChecks hchecks)
    | ok slot => exact .carried _ _

theorem cancel_kept : RuleKept p 0x22#8 args s (cancel p args s) := by
  refine .of_length rfl rfl ?_
  cases s.sched.findArmed p (b1 (fld args 0 1)) with
  | some a => exact .carried _ _
  | none =>
    cases s.sched.findWaiting p (b1 (fld args 0 1)) with
    | some e => exact .carried _ _
    | none => exact .refused rfl

theorem entryQuery_kept : RuleKept p 0x23#8 args s (entryQuery p args s) := by
  refine .of_length rfl rfl ?_
  cases s.sched.findArmed p (b1 (fld args 0 1)) with
  | some a => exact .carried _ _
  | none =>
    cases s.sched.findWaiting p (b1 (fld args 0 1)) with
    | some e => exact .carried _ _
    | none => exact .refused rfl

theorem scheduleList_kept : RuleKept p 0x24#8 args s (scheduleList p args s) := .of_length rfl rfl (.carried _ _)

theorem hold_kept : RuleKept p 0x25#8 args s (hold p args s) := .of_claim rfl (.carried _ _)

theorem resume_kept : RuleKept p 0x26#8 args s (resume p args s) :=
  .of_claim rfl (.ite (.refused rfl) (.ite (.carried _ _) (.carried _ _)))

theorem scheduleConfigure_kept : RuleKept p 0x27#8 args s (scheduleConfigure p args s) :=
  .of_claim rfl (.ite (.refused rfl) (.carried _ _))

theorem pinConfigure_kept (level : Level) : RuleKept p 0x30#8 args s (pinConfigure p args level s) := by
  refine .of_claim rfl ?_
  cases readPinMap args with
  | none => exact .refused rfl
  | some m => exact .ite (.refused rfl) (.ite (.refused rfl) (.carried _ _))

theorem pinClaim_kept : RuleKept p 0x31#8 args s (pinClaim p args s) := by
  refine .of_length rfl rfl ?_
  cases pinOfCode (fld args 0 1) with
  | none => exact .refused rfl
  | some k =>
    refine .ite (.refused rfl) (.ite (.refused rfl) ?_)
    cases (s.pins.get k).holder with
    | none => exact .carried _ _
    | some holder => exact .ite (.carried _ _) (.heldBy _)

theorem pinRelease_kept : RuleKept p 0x32#8 args s (pinRelease p args s) := by
  refine .of_length rfl rfl ?_
  cases pinOfCode (fld args 0 1) with
  | none => exact .refused rfl
  | some k => exact .ite (.refused rfl) (.carried _ _)

theorem pinWrite_kept : RuleKept p 0x33#8 args s (pinWrite p args s) := by
  refine .of_length rfl rfl ?_
  cases pinOfCode (fld args 0 1) with
  | none => exact .refused rfl
  | some k =>
    cases boolOfCode (fld args 1 1) with
    | none => exact .refused rfl
    | some level => exact .ite (.refused rfl) (.ite (.refused rfl) (.ite (.refused rfl) (.carried _ _)))

theorem pinRead_kept : RuleKept p 0x34#8 args s (pinRead args s) := .of_length rfl rfl (.carried _ _)

theorem subscribe_kept : RuleKept p 0x38#8 args s (subscribe p args s) := by
  refine .of_length rfl rfl ?_
  cases pinOfCode (fld args 0 1) with
  | none => exact .refused rfl
  | some k =>
    cases SubMode.ofCode (fld args 1 1) with
    | none => exact .refused rfl
    | some mode => exact .ite (.refused rfl) (.carried _ _)

theorem eventRead_kept : RuleKept p 0x40#8 args s (eventRead p args s) :=
  .of_length rfl rfl (.ite (.refused rfl) (.carried _ _))

theorem ringConfigure_kept : RuleKept p 0x41#8 args s (ringConfigure p args s) :=
  .of_length rfl rfl (.ite (.refused rfl) (.carried _ _))

theorem vectorConfigure_kept : RuleKept p 0x48#8 args s (vectorConfigure p args s) := by
  refine .of_length rfl rfl (.ite (.refused rfl) ?_)
  cases readClassMap args with
  | none => exact .refused rfl
  | some m => exact .carried _ _

theorem vectorAck_kept : RuleKept p 0x49#8 args s (vectorAck p args s) := by
  refine .of_length rfl rfl ?_
  cases vecOfCode (fld args 0 1) with
  | none => exact .refused rfl
  | some v => exact .ite (.carried _ _) (.carried _ _)

theorem notifyControl_kept : RuleKept p 0x4A#8 args s (notifyControl p args s) :=
  .of_length rfl rfl (.ite (.refused rfl) (.carried _ _))

theorem vectorRead_kept : RuleKept p 0x4B#8 args s (vectorRead p args s) := .of_length rfl rfl (.carried _ _)

theorem faultRead_kept : RuleKept p 0x50#8 args s (faultRead args s) := .of_length rfl rfl (.carried _ _)

theorem faultClear_kept : RuleKept p 0x51#8 args s (faultClear p args s) := by
  refine .of_claim rfl ?_
  cases FaultKind.ofCode (fld args 0 1) with
  | none => exact .refused rfl
  | some k => exact .carried _ _

theorem faultConfigure_kept : RuleKept p 0x52#8 args s (faultConfigure p args s) :=
  .of_claim rfl (.ite (.refused rfl) (.carried _ _))

theorem faultRecordClear_kept : RuleKept p 0x53#8 args s (faultRecordClear p args s) := .of_claim rfl (.carried _ _)

theorem settingsClaim_kept : RuleKept p 0x60#8 args s (settingsClaim p args s) := by
  refine .of_length rfl rfl (.ite (.refused rfl) ?_)
  cases s.settings.holder with
  | none => exact .ite (.refused rfl) (.carried _ _)
  | some holder => exact .ite (.carried _ _) (.heldBy _)

theorem settingsRelease_kept : RuleKept p 0x61#8 args s (settingsRelease p args s) :=
  .of_length rfl rfl (.ite (.refused rfl) (.carried _ _))

theorem portLimitsSet_kept : RuleKept p 0x62#8 args s (portLimitsSet p args s) :=
  .of_claim rfl (.ite (.refused rfl) (.ite (.refused rfl) (.ite (.refused rfl) (.carried _ _))))

theorem settingsRead_kept : RuleKept p 0x63#8 args s (settingsRead args s) := .of_length rfl rfl (.carried _ _)

theorem storeWrite_kept : RuleKept p 0x64#8 args s (storeWrite p args s) :=
  .of_claim rfl (.ite (.refused rfl) (.ite (.refused rfl) (.carried _ _)))

theorem storeFreeze_kept : RuleKept p 0x65#8 args s (storeFreeze p args s) :=
  .of_claim rfl (.ite (.refused rfl) (.ite (.refused rfl) (.carried _ _)))

end

/-! ## Every request -/

/-- How a command with this code is received: a port that takes no frame sees it end only, and a well-formed one leaves what every
request does. -/
structure Received (c : Instr) (p : Port) (code : Byte) (args : List Byte) (s : State) : Prop where
  ends : s.takesFrames p = false → exec c s = .next (frameEnd p s)
  settles : c.wf = true → s.takesFrames p = true → ∃ t, exec c s = .next t ∧ Settled p code args s t

theorem Received.of_rule {c : Instr} {p : Port} {code : Byte} {args : List Byte} {s : State} {rule : State → Reply}
    (hexec : exec c s = .next (request p code s rule)) (hrule : RuleKept p code args s (rule s)) : Received c p code args s where
  ends huntaken := by rw [hexec, request_untaken huntaken]
  settles _ htakes := ⟨_, by rw [hexec, request_taken htakes], hrule.settled⟩

/-! ## Unknown requests, and PORT RESET -/

/-- A code outside R203 has no argument length: each of the 256 codes by evaluation. -/
theorem requestLength_unknown : ∀ code : Byte, requestCodes.contains code = false → requestLength code = none := by
  decide


theorem unknownRequest_received (p : Port) (code : Byte) (args : List Byte) (s : State) :
    Received (.unknownRequest p code args) p code args s where
  ends huntaken := by
    change Host.Outcome.next (unknownRequest p code args s) = _
    rw [unknownRequest, huntaken, request_untaken huntaken]
    rfl
  settles hwf htakes := by
    have hunknown : requestCodes.contains code = false := by
      simp only [Instr.wf, Bool.and_eq_true, Bool.not_eq_true'] at hwf
      obtain ⟨-, hunknown⟩ := hwf
      exact hunknown
    refine ⟨_, by rw [exec_unknownRequest hwf, request_taken htakes], RuleKept.settled (.of_any ?_ (.refused rfl))⟩
    exact requestLength_unknown code hunknown

/-- What a port reset leaves of the port that asked for it (R196, R197). -/
theorem portResetOf_settled (p : Port) {args : List Byte} (hargs : args.length = 0) (s : State) :
    Settled p 0x03#8 args s (portResetOf p s) := by
  obtain ⟨hidle, hsdo, -, hresult, -⟩ := (portResetOf_atPortReset p s).buffer
  constructor
  case idle => exact hidle
  case ones => intro k; rw [PortState.sdoByte, hsdo]; rfl
  case resets => exact fun _ => .inl rfl
  case echo => rw [hresult]; exact fun h => absurd rfl h
  case refused => rw [hresult]; exact fun h => absurd rfl h
  case checks =>
    rintro n ⟨⟩
    exact ⟨fun hne => absurd hargs hne, fun _ hneeds => nomatch hneeds⟩

theorem portReset_received (p : Port) (args : List Byte) (s : State) : Received (.portReset p args) p 0x03#8 args s := by
  by_cases hargs : args.length ≠ 0
  · have hexec : exec (.portReset p args) s = .next (request p 0x03#8 s fun s => refuse s .badArgument) :=
      congrArg Host.Outcome.next (if_pos hargs)
    have hrule : RuleKept p 0x03#8 args s (if args.length ≠ 0 then refuse s .badArgument else ok s []) :=
      .of_length rfl rfl (.carried _ _)
    rw [if_pos hargs] at hrule
    exact .of_rule hexec hrule
  · have hexec : exec (.portReset p args) s = .next (if s.takesFrames p then portResetOf p s else frameEnd p s) :=
      congrArg Host.Outcome.next (if_neg hargs)
    exact ⟨fun huntaken => by rw [hexec, huntaken]; rfl,
      fun _ htakes => ⟨_, by rw [hexec, if_pos htakes], portResetOf_settled p (not_not.1 hargs) s⟩⟩

/-! ## HUB RESET -/

section
variable {p : Port} {args : List Byte} {s : State}

theorem hubResetCheck_nil (p : Port) (s : State) : hubResetCheck p [] s =
    if !s.holdsSettings p then some .notPermitted else if s.settings.store.isWriting then some .storeBusy else none := rfl

/-- What a passing HUB RESET has met (R198). -/
theorem hubResetCheck_passes (h : hubResetCheck p args s = none) : args.length = 0 ∧ s.settings.holder = some p := by
  unfold hubResetCheck at h
  repeat' split at h
  · cases h
  · cases h
  · cases h
  · next hargs hholds _ => exact ⟨not_not.1 hargs, by simpa [State.holdsSettings] using hholds⟩

theorem hubResetCheck_kept {st : Status} (h : hubResetCheck p args s = some st) : RuleKept p 0x66#8 args s (refuse s st) := by
  have hrule : RuleKept p 0x66#8 args s (if args.length ≠ 0 then refuse s .badArgument
      else if !s.holdsSettings p then refuse s .notPermitted else refuse s .storeBusy) := .of_claim rfl (.refused rfl)
  unfold hubResetCheck at h
  repeat' split at h
  · next hargs => cases h; rwa [if_pos hargs] at hrule
  · next hargs hholds => cases h; rwa [if_neg hargs, if_pos hholds] at hrule
  · next hargs hholds _ => cases h; rwa [if_neg hargs, if_neg hholds] at hrule
  · cases h

theorem exec_hubReset_refused {st : Status} (h : hubResetCheck p args s = some st) :
    exec (.hubReset p args) s = .next (request p 0x66#8 s fun s => refuse s st) := by
  change execHubReset p args s = _
  rw [execHubReset, h]

theorem exec_hubReset_passing (h : hubResetCheck p args s = none) :
    exec (.hubReset p args) s = .next (if s.takesFrames p then hubResetAll true s else frameEnd p s) := by
  change execHubReset p args s = _
  rw [execHubReset, h]

theorem hubResetAll_port (byRequest : Bool) (p : Port) (s : State) :
    (hubResetAll byRequest s).ports.get p = (s.ports.get p).hubReset := by rw [hubResetAll_ports, Tab.get_map]

/-- What a hub reset leaves of the port that asked for it (R198, R199). -/
theorem hubResetAll_settled (hargs : args.length = 0) (hholder : s.settings.holder = some p) :
    Settled p 0x66#8 args s (hubResetAll true s) := by
  constructor
  case idle => rw [hubResetAll_port]; rfl
  case ones => intro k; rw [hubResetAll_port]; rfl
  case resets => exact fun _ => .inr rfl
  case echo => rw [hubResetAll_port]; exact fun h => absurd rfl h
  case refused => rw [hubResetAll_port]; exact fun h => absurd rfl h
  case checks =>
    rintro n ⟨⟩
    exact ⟨fun hne => absurd hargs hne, fun _ _ hnot => absurd hholder hnot⟩

theorem hubReset_received (p : Port) (args : List Byte) (s : State) : Received (.hubReset p args) p 0x66#8 args s := by
  cases hcheck : hubResetCheck p args s with
  | some st => exact .of_rule (exec_hubReset_refused hcheck) (hubResetCheck_kept hcheck)
  | none =>
    obtain ⟨hargs, hholder⟩ := hubResetCheck_passes hcheck
    have hexec := exec_hubReset_passing hcheck
    exact ⟨fun huntaken => by rw [hexec, huntaken]; rfl,
      fun _ htakes => ⟨_, by rw [hexec, if_pos htakes], hubResetAll_settled hargs hholder⟩⟩

end

/-! ## The statements -/

/-- Every request command goes by its rule, or, in PORT RESET and HUB RESET, by its checks and the reset. -/
theorem exec_received {c : Instr} {p : Port} {code : Byte} {args : List Byte} (h : c.request? = some (p, code, args))
    (s : State) : Received c p code args s := by
  cases c with
  | unknownRequest => cases h; exact unknownRequest_received ..
  | portReset => cases h; exact portReset_received ..
  | hubReset => cases h; exact hubReset_received ..
  | identify => cases h; exact .of_rule rfl (identify_kept ..)
  | portStatus => cases h; exact .of_rule rfl (portStatus_kept ..)
  | leaseSet => cases h; exact .of_rule rfl (leaseSet_kept ..)
  | leaseRenew => cases h; exact .of_rule rfl (leaseRenew_kept ..)
  | timeRead => cases h; exact .of_rule rfl (timeRead_kept ..)
  | timeReadScaled => cases h; exact .of_rule rfl (timeReadScaled_kept ..)
  | timeSet => cases h; exact .of_rule rfl (timeSet_kept ..)
  | refConfigure => cases h; exact .of_rule rfl (refConfigure_kept ..)
  | disciplineProfile => cases h; exact .of_rule rfl (disciplineProfile_kept ..)
  | disciplineStatus => cases h; exact .of_rule rfl (disciplineStatus_kept ..)
  | scheduleAt => cases h; exact .of_rule rfl (scheduleAt_kept ..)
  | scheduleOnEdge => cases h; exact .of_rule rfl (scheduleOnEdge_kept ..)
  | cancel => cases h; exact .of_rule rfl (cancel_kept ..)
  | entryQuery => cases h; exact .of_rule rfl (entryQuery_kept ..)
  | scheduleList => cases h; exact .of_rule rfl (scheduleList_kept ..)
  | hold => cases h; exact .of_rule rfl (hold_kept ..)
  | resume => cases h; exact .of_rule rfl (resume_kept ..)
  | scheduleConfigure => cases h; exact .of_rule rfl (scheduleConfigure_kept ..)
  | pinConfigure => cases h; exact .of_rule rfl (pinConfigure_kept ..)
  | pinClaim => cases h; exact .of_rule rfl (pinClaim_kept ..)
  | pinRelease => cases h; exact .of_rule rfl (pinRelease_kept ..)
  | pinWrite => cases h; exact .of_rule rfl (pinWrite_kept ..)
  | pinRead => cases h; exact .of_rule rfl (pinRead_kept ..)
  | subscribe => cases h; exact .of_rule rfl (subscribe_kept ..)
  | eventRead => cases h; exact .of_rule rfl (eventRead_kept ..)
  | ringConfigure => cases h; exact .of_rule rfl (ringConfigure_kept ..)
  | vectorConfigure => cases h; exact .of_rule rfl (vectorConfigure_kept ..)
  | vectorAck => cases h; exact .of_rule rfl (vectorAck_kept ..)
  | notifyControl => cases h; exact .of_rule rfl (notifyControl_kept ..)
  | vectorRead => cases h; exact .of_rule rfl (vectorRead_kept ..)
  | faultRead => cases h; exact .of_rule rfl (faultRead_kept ..)
  | faultClear => cases h; exact .of_rule rfl (faultClear_kept ..)
  | faultConfigure => cases h; exact .of_rule rfl (faultConfigure_kept ..)
  | faultRecordClear => cases h; exact .of_rule rfl (faultRecordClear_kept ..)
  | settingsClaim => cases h; exact .of_rule rfl (settingsClaim_kept ..)
  | settingsRelease => cases h; exact .of_rule rfl (settingsRelease_kept ..)
  | portLimitsSet => cases h; exact .of_rule rfl (portLimitsSet_kept ..)
  | settingsRead => cases h; exact .of_rule rfl (settingsRead_kept ..)
  | storeWrite => cases h; exact .of_rule rfl (storeWrite_kept ..)
  | storeFreeze => cases h; exact .of_rule rfl (storeFreeze_kept ..)
  | _ => cases h

/-- Settles O10: `exec_received` gives what every well-formed request leaves on a port that takes frames. -/
theorem refusedRequestChangesOnlyTheBuffer : Obligations.RefusedRequestChangesOnlyTheBuffer := by
  intro c p code args s hwf hrequest htakes
  obtain ⟨t, hexec, hsettled⟩ := (exec_received hrequest s).settles hwf htakes
  exact ⟨t, hexec, hsettled.idle, hsettled.ones, hsettled.resets, hsettled.echo, hsettled.refused, hsettled.checks⟩

theorem takesFrames_closed {p : Port} {s : State} (h : s.powered = false ∨ s.resetnLow = true ∨ s.load ≠ none ∨
    (s.ports.get p).prstnLow = true ∨ (s.ports.get p).missed = true) : s.takesFrames p = false := by
  rcases h with h | h | h | h | h <;> simp [State.takesFrames, h]

/-- Settles O11: no frame command is more than its end on a port that takes none. -/
theorem portInResetReceivesNoFrame : Obligations.PortInResetReceivesNoFrame := by
  intro p s hclosed
  have huntaken := takesFrames_closed hclosed
  refine ⟨frameEnd p s, rfl, frameEnd_idle, fun c code args hrequest => (exec_received hrequest s).ends huntaken, ?read,
    fun bytes trailing => ?bad⟩
  case read => exact congrArg Host.Outcome.next (by rw [resultRead, huntaken]; rfl)
  case bad => exact congrArg Host.Outcome.next (by rw [badFrame, huntaken]; rfl)

end Sys2Proof.Machine
end

section
/-! SUPPORT. LEASE SET and LEASE RENEW (R191, R192), and hub resets: HUB RESET, and the fall and the rise of RESETn (R198, R199). -/

namespace Sys2Proof.Machine

open Sys2Proof.Safety

/-! ## LEASE SET and LEASE RENEW -/

/-- The result of a lease that has just been started: state, period, and the whole period left (R192, R203). -/
def startedData (ms : Nat) : List Byte := [if ms = 0 then 0#8 else 1#8] ++ beN 2 ms ++ beN 8 (ms * 1000000)

theorem leaseData_startLease (p : Port) (ms : Nat) (s : State) : leaseData p (startLease p ms s) = startedData ms := by
  rw [leaseData, startLease_ports, Tab.get_upd_self, startLease_time]
  by_cases h : ms = 0 <;> simp [startedData, PortState.startLease, h, Lease.code, Lease.left, b1]

section
variable {p : Port} {ms : Nat} {args : List Byte}

theorem leaseSet_of_args (h : args.length ≠ 2) (s : State) : leaseSet p args s = refuse s .badArgument := if_pos h

/-- The period that the two bytes of a LEASE SET give (R192). -/
theorem leaseSet_bytes (p : Port) (h : ms ≤ 65535) (s : State) : leaseSet p (beN 2 ms) s =
    if !leaseInRange ms then refuse s .badArgument else ok (startLease p ms s) (startedData ms) := by
  have hms : fld (beN 2 ms) 0 2 = ms := by rw [fld_beN, Nat.mod_eq_of_lt (by omega)]
  rw [leaseSet, if_neg (not_not_intro (length_beN 2 ms)), hms, ← leaseData_startLease p ms s]

theorem leaseSet_passing (h : ms = 0 ∨ 10 ≤ ms ∧ ms ≤ 60000) (s : State) :
    leaseSet p (beN 2 ms) s = ok (startLease p ms s) (startedData ms) := by
  rw [leaseSet_bytes p (by omega), leaseInRange_iff.2 h]
  rfl

theorem leaseSet_outOfRange (h : 1 ≤ ms ∧ ms ≤ 9 ∨ 60001 ≤ ms ∧ ms ≤ 65535) (s : State) :
    leaseSet p (beN 2 ms) s = refuse s .badArgument := by
  have hout : leaseInRange ms = false := Bool.eq_false_of_not_eq_true fun hin => by
    rw [leaseInRange_iff] at hin
    omega
  rw [leaseSet_bytes p (by omega), hout]
  rfl

theorem leaseRenew_of_args (h : args ≠ []) (s : State) : leaseRenew p args s = refuse s .badArgument :=
  if_pos (by simpa using h)

theorem leaseRenew_nil (p : Port) (s : State) :
    leaseRenew p [] s = ok (startLease p (s.ports.get p).leasePeriodMs s) (startedData (s.ports.get p).leasePeriodMs) := by
  rw [leaseRenew, if_neg (by simp), ← leaseData_startLease p _ s]

/-- A lease started again with its own period keeps the period (R192). -/
theorem startLease_renewed {s : State} (h : (s.ports.get p).leasePeriodMs = ms) : startLease p ms s =
    { s with ports := s.ports.upd p fun q => { q with
      lease := if ms = 0 then .none else .running (s.time.rt + ms * 1000000) } } := by
  have hport : (s.ports.get p).startLease s.time.rt ms =
      { s.ports.get p with lease := if ms = 0 then .none else .running (s.time.rt + ms * 1000000) } := by
    rw [PortState.startLease, ← h]
  rw [startLease, Tab.upd, hport]
  rfl

end

/-- Settles O56: each request's rule by its checks, and the data of a lease just started. -/
theorem leaseRequestsStartTheLease : Obligations.LeaseRequestsStartTheLease := by
  intro p s htakes
  refine ⟨fun ms hms => ?set, fun ms hms => ?range, fun ms hms => ?renew, fun args hargs => ?setArgs,
    fun args hargs => ?renewArgs⟩
  case set => exact congrArg _ (request_carried htakes (leaseSet_passing hms s))
  case range => exact congrArg _ (request_refused htakes (leaseSet_outOfRange hms s))
  case renew =>
    have hrule := leaseRenew_nil p s
    rw [hms, startLease_renewed hms] at hrule
    exact congrArg _ (request_carried htakes hrule)
  case setArgs => exact congrArg _ (request_refused htakes (leaseSet_of_args hargs s))
  case renewArgs => exact congrArg _ (request_refused htakes (leaseRenew_of_args hargs s))

/-! ## Hub resets -/

theorem abandonWrite_store (u : SettingsUnit) : u.abandonWrite.store.isWriting = false := by
  unfold SettingsUnit.abandonWrite
  split
  next => rfl
  next h => rw [h]; rfl
  next h => rw [h]; rfl

/-- The hub reset values of R199, block by block. -/
theorem hubResetAll_atHubReset (byRequest : Bool) (s : State) : AtHubReset s (hubResetAll byRequest s) where
  timeKept := rfl
  faultsKept := rfl
  disc := ⟨rfl, rfl, rfl, rfl, rfl, rfl, rfl, fun p => Tab.get_fill _ p⟩
  schedule := ⟨rfl, rfl, rfl⟩
  pins k := by
    rw [hubResetAll_pins, Tab.get_map]
    exact ⟨rfl, rfl, rfl, rfl⟩
  capture := ⟨fun k => Tab.get_fill _ k, fun p k => by simp [hubResetAll]⟩
  rings p := Tab.get_fill _ p
  vectors p := by
    have hreset : (hubResetAll byRequest s).vectors.get p = .reset := Tab.get_fill _ p
    rw [hreset]
    exact ⟨fun v => Tab.get_fill _ v, fun c => Tab.get_fill _ c, rfl, rfl, rfl⟩
  settings := ⟨rfl, rfl, abandonWrite_store s.settings⟩
  image := by
    obtain ⟨hkept, hcut⟩ := abandonWrite_image s.settings
    split
    next hwriting => exact hcut hwriting
    next hidle => exact hkept (Bool.eq_false_of_not_eq_true hidle)
  ports p := by
    rw [hubResetAll_port]
    exact ⟨rfl, rfl, rfl, rfl, rfl, rfl, rfl⟩
  load := nofun
  rest := ⟨rfl, rfl⟩

/-- An owed load that is to follow at once keeps the hub from its next advance (R199). -/
theorem not_quiet_of_load {s : State} (h : s.load = some (.hubReset true)) : quiet s = false := by
  rw [quiet, h]
  exact Bool.and_false _

/-- Where no load after a power-on is awaited, the load that a hub reset owes is told by how the reset came (R199). -/
theorem hubResetAll_load (byRequest : Bool) {s : State} (h : s.load ≠ some .powerOn) :
    (hubResetAll byRequest s).load = some (.hubReset byRequest) := by
  refine congrArg some (?_ : loadAfterReset byRequest s.load = .hubReset byRequest)
  unfold loadAfterReset
  split
  next hload => exact absurd hload h
  next => rfl
  next => rfl

/-- The fall of the line itself moves nothing that a hub reset reads. -/
theorem atHubReset_of_resetnLow {s t : State} (h : AtHubReset { s with resetnLow := true } t) : AtHubReset s t :=
  ⟨h.timeKept, h.faultsKept, h.disc, h.schedule, h.pins, h.capture, h.rings, h.vectors, h.settings, h.image, h.ports, h.load,
    h.rest⟩

section
variable {p : Port} {s : State}

theorem hubResetCheck_of_args {args : List Byte} (h : args ≠ []) : hubResetCheck p args s = some .badArgument :=
  if_pos (by simpa using h)

theorem hubResetCheck_of_not_holder (h : s.settings.holder ≠ some p) : hubResetCheck p [] s = some .notPermitted := by
  rw [hubResetCheck_nil, holdsSettings_of_not_holder h]
  rfl

theorem hubResetCheck_of_holder (h : s.settings.holder = some p) :
    hubResetCheck p [] s = if s.settings.store.isWriting then some .storeBusy else none := by
  rw [hubResetCheck_nil, holdsSettings_of_holder h]
  rfl

theorem exec_resetnFall_high (hpowered : s.powered = true) (hhigh : s.resetnLow = false) :
    exec .resetnFall s = .next (hubResetAll false { s with resetnLow := true }) := by
  change Host.Outcome.next (resetnFall s) = _
  simp [resetnFall, hhigh, hpowered]

theorem exec_hubReset_refusal (htakes : s.takesFrames p = true) {args : List Byte} {st : Status}
    (h : hubResetCheck p args s = some st) : exec (.hubReset p args) s = .next (answer p ⟨st, 0x66#8, []⟩ s) := by
  rw [exec_hubReset_refused h, request_refused htakes rfl]

theorem exec_hubReset_taken (htakes : s.takesFrames p = true) (hholder : s.settings.holder = some p)
    (hidle : s.settings.store.isWriting = false) : exec (.hubReset p []) s = .next (hubResetAll true s) := by
  have hpass : hubResetCheck p [] s = none := by
    rw [hubResetCheck_of_holder hholder, hidle]
    rfl
  rw [exec_hubReset_passing hpass, if_pos htakes]

end

/-- Settles O59: the checks by `hubResetCheck`, and the values of both resets by `hubResetAll_atHubReset`. -/
theorem hubResetGivesResetValues : Obligations.HubResetGivesResetValues := by
  intro p s
  refine ⟨fun htakes => ⟨fun args hargs => ?args, fun hnot => ?claim, fun hholder hwriting => ?busy,
    fun hholder hidle => ?passing⟩, fun hpowered hhigh => ?fall, rfl⟩
  case args => exact exec_hubReset_refusal htakes (hubResetCheck_of_args hargs)
  case claim => exact exec_hubReset_refusal htakes (hubResetCheck_of_not_holder hnot)
  case busy => exact exec_hubReset_refusal htakes (by rw [hubResetCheck_of_holder hholder, if_pos hwriting])
  case passing =>
    have hload : (hubResetAll true s).load = some (.hubReset true) :=
      hubResetAll_load true (by rw [load_none_of_takesFrames htakes]; nofun)
    exact ⟨hubResetAll true s, exec_hubReset_taken htakes hholder hidle, hubResetAll_atHubReset true s, rfl, hload,
      not_quiet_of_load hload⟩
  case fall =>
    exact ⟨_, exec_resetnFall_high hpowered hhigh, atHubReset_of_resetnLow (hubResetAll_atHubReset false _), rfl,
      hubResetAll_load false⟩

end Sys2Proof.Machine
end

section
/-! SUPPORT. A step is the command at the front of the queue; and what every command keeps to: it answers a next state, and leaves the
queue as the sender filled it (00_scope.md, Requests and results; 95_what_each_step_holds.md). -/

namespace Sys2Proof.Machine

open Sys2Proof.Safety

/-! ## One step -/

theorem step_cons (c : Instr) (rest : List Instr) (s : State) :
    step { s with pending := c :: rest } = exec c { s with pending := rest } := rfl

theorem step_idle {s : State} (h : s.pending = []) : step s = .next s := by
  rw [step, h]

/-- Settles O1: the two cases of the queue. -/
theorem stepRunsTheFrontCommand : Obligations.StepRunsTheFrontCommand := ⟨step_cons, fun _ => step_idle⟩

/-! ## Events of time, the schedule and the reference -/

theorem expiry_pending (s : State) : (expiry s).pending = s.pending := by
  unfold expiry
  split
  · exact (takeDue_fireOnly _ s).pending
  · rfl

theorem takeHoldNotice_pending (s : State) : (takeHoldNotice s).pending = s.pending := by
  unfold takeHoldNotice
  split
  · exact (enterHeld_sameCore _).pending
  · rfl

theorem miss_edgeOnly (s : State) : EdgeOnly s (miss s) := by
  have hcount : EdgeOnly s (countMiss s) := ⟨rfl⟩
  unfold miss
  dsimp only
  repeat' split
  · exact hcount.trans (referenceLoss_edgeOnly _)
  · exact hcount
  · exact .refl s

/-! ## Events of pins -/

theorem handOn_setWatch_pending (pin : Pin) (ed : Edge) (ht : Nat) (epoch : BitVec 16) (locked late : Bool) (w : Watch) (s : State) :
    (handOn pin ed ht epoch locked late (setWatch pin w s)).pending = s.pending :=
  (handOn_fireOnly _ _ _ _ _ _ _).pending.trans (setWatch_pending pin w s)

theorem transition_pending (pin : Pin) (level : Level) (s : State) : (transition pin level s).pending = s.pending := by
  unfold transition
  repeat' split
  · rfl
  · exact setWatch_pending _ _ s
  · exact handOn_setWatch_pending _ _ _ _ _ _ _ s
  · exact setWatch_pending _ _ s
  · rfl

theorem debounceWindowEnd_pending (pin : Pin) (level : Level) (s : State) :
    (debounceWindowEnd pin level s).pending = s.pending := by
  unfold debounceWindowEnd
  dsimp only
  repeat' split
  · rfl
  · exact setWatch_pending _ _ s
  · exact handOn_setWatch_pending _ _ _ _ _ _ _ s

theorem contentionCheck_pending (pin : Pin) (level : Level) (s : State) : (contentionCheck pin level s).pending = s.pending := by
  unfold contentionCheck
  dsimp only
  repeat' split
  · rfl
  · rfl
  · exact (occur_logOnly _ _ _ _).pending
  · rfl

/-! ## Events of leases and of the settings store -/

theorem leaseExpiry_pending (p : Port) (s : State) : (leaseExpiry p s).pending = s.pending := by
  cases hdue : s.leaseDue p with
  | false => rw [leaseExpiry, hdue]; rfl
  | true =>
    obtain ⟨hpowered, point, hlease, hreached⟩ := leaseDue_iff.1 hdue
    rw [leaseExpiry_reached hpowered hlease hreached]
    have hfire := leaseReported_fireOnly p s
    generalize leaseReported p s = reported at hfire ⊢
    exact hfire.pending

theorem storeCompletion_pending (verified : Bool) (s : State) : (storeCompletion verified s).pending = s.pending := by
  unfold storeCompletion
  dsimp only
  repeat' split
  · rfl
  · rfl
  · exact (postStoreDone_logOnly _ _ _).pending
  · exact (occur_logOnly _ _ _ _).pending.trans (postStoreDone_logOnly _ _ _).pending
  · rfl

theorem settingsLoad_pending (levels : BitVec 24) (begun : BitVec 4) (s : State) :
    (settingsLoad levels begun s).pending = s.pending := by
  unfold settingsLoad
  repeat' split
  · rfl
  · rfl
  · exact (occur_logOnly _ _ _ _).pending
  · rfl

/-! ## Resets and the supply -/

theorem prstnFall_pending (p : Port) (s : State) : (prstnFall p s).pending = s.pending := by
  unfold prstnFall
  dsimp only
  repeat' split
  · rfl
  · exact (portResetOf_pending p _).trans (pullPrstn_pending p s)
  · exact pullPrstn_pending p s

theorem prstnRise_pending (p : Port) (begun : Bool) (s : State) : (prstnRise p begun s).pending = s.pending := by
  unfold prstnRise
  split <;> rfl

theorem resetnFall_pending (s : State) : (resetnFall s).pending = s.pending := by
  unfold resetnFall
  dsimp only
  repeat' split
  · rfl
  · exact hubResetAll_pending false _
  · rfl

theorem powerLoss_pending (s : State) : (powerLoss s).pending = s.pending := by
  unfold powerLoss
  split <;> rfl

/-! ## Frames and requests -/

theorem badFrame_pending (p : Port) (bytes : List Byte) (trailing : Nat) (s : State) :
    (badFrame p bytes trailing s).pending = s.pending := by
  unfold badFrame
  repeat' split
  · rfl
  · exact (occur_logOnly _ _ _ _).pending
  · exact frameEnd_pending p s

theorem resultRead_pending (p : Port) (s : State) : (resultRead p s).pending = s.pending := by
  unfold resultRead
  split <;> rfl

theorem timeSet_pending (p : Port) (args : List Byte) (s : State) : (timeSet p args s).state.pending = s.pending := by
  unfold timeSet
  dsimp only
  repeat' split
  · rfl
  · rfl
  · rfl
  · rfl
  · rfl
  · rfl
  · exact (forwardStep_edgeOnly _ s).pending

/-- A request frame leaves the queue alone where its rule does. -/
theorem request_pending {p : Port} {code : Byte} {s : State} {rule : State → Reply} (h : (rule s).state.pending = s.pending) :
    (request p code s rule).pending = s.pending := by
  rcases request_cases p code s rule with ⟨e, -⟩ | ⟨e, -⟩ <;> rw [e]
  · exact frameEnd_pending p s
  · exact (answer_pending _ _ _).trans h

/-! ## Every command -/

/-- The command answers a next state, with the queue as it was. -/
def KeepsQueue (c : Instr) (s : State) : Prop := ∃ t, exec c s = .next t ∧ t.pending = s.pending

section
variable {c : Instr} {s : State}

/-- A command whose answer is known. -/
theorem KeepsQueue.of_next {t : State} (hexec : exec c s = .next t) (h : t.pending = s.pending) : KeepsQueue c s := ⟨t, hexec, h⟩

/-- A request whose rule keeps the core, the queue with it. -/
theorem KeepsQueue.of_core {p : Port} {code : Byte} {rule : State → Reply} (hexec : exec c s = .next (request p code s rule))
    (h : SameCore s (rule s).state) : KeepsQueue c s := .of_next hexec (request_pending h.pending)

/-- A request that only reads. -/
theorem KeepsQueue.of_read {p : Port} {code : Byte} {rule : State → Reply} (hexec : exec c s = .next (request p code s rule))
    (h : (rule s).state = s) : KeepsQueue c s := .of_core hexec (.of_eq h)

/-- A request with the footprint of expiries. -/
theorem KeepsQueue.of_fire {p : Port} {code : Byte} {rule : State → Reply} (hexec : exec c s = .next (request p code s rule))
    (h : FireOnly s (rule s).state) : KeepsQueue c s := .of_core hexec (.of_fireOnly h)

end

theorem portReset_keepsQueue (p : Port) (args : List Byte) (s : State) : KeepsQueue (.portReset p args) s := by
  refine .of_next rfl ?_
  repeat' split
  · exact request_pending rfl
  · exact portResetOf_pending p s
  · exact frameEnd_pending p s

theorem hubReset_keepsQueue (p : Port) (args : List Byte) (s : State) : KeepsQueue (.hubReset p args) s := by
  refine .of_next rfl ?_
  repeat' split
  · exact request_pending rfl
  · exact hubResetAll_pending true s
  · exact frameEnd_pending p s

theorem advance_keepsQueue (s : State) : KeepsQueue .advance s := by
  refine .of_next rfl ?_
  split <;> rfl

theorem exec_keepsQueue (c : Instr) (s : State) : KeepsQueue c s := by
  cases c with
  | powerOn => exact .of_next rfl rfl
  | powerLoss => exact .of_next rfl (powerLoss_pending s)
  | resetnFall => exact .of_next rfl (resetnFall_pending s)
  | resetnRise => exact .of_next rfl rfl
  | prstnFall p => exact .of_next rfl (prstnFall_pending p s)
  | prstnRise rise => exact .of_next rfl (prstnRise_pending _ _ s)
  | settingsLoad seen => exact .of_next rfl (settingsLoad_pending _ _ s)
  | advance => exact advance_keepsQueue s
  | expiry => exact .of_next rfl (expiry_pending s)
  | activeEdge change => exact .of_next rfl (activeEdge_edgeOnly change s).pending
  | miss => exact .of_next rfl (miss_edgeOnly s).pending
  | transition pin level => exact .of_next rfl (transition_pending pin level s)
  | debounceWindowEnd pin level => exact .of_next rfl (debounceWindowEnd_pending pin level s)
  | contentionCheck pin level => exact .of_next rfl (contentionCheck_pending pin level s)
  | leaseExpiry p => exact .of_next rfl (leaseExpiry_pending p s)
  | storeCompletion verified => exact .of_next rfl (storeCompletion_pending verified s)
  | holdNotice => exact .of_next rfl (takeHoldNotice_pending s)
  | badFrame p bytes trailing => exact .of_next rfl (badFrame_pending p bytes trailing s)
  | unknownRequest p code args => exact .of_next rfl (unknownRequest_sameCore p code args s).pending
  | resultRead p => exact .of_next rfl (resultRead_pending p s)
  | portReset p args => exact portReset_keepsQueue p args s
  | hubReset p args => exact hubReset_keepsQueue p args s
  | timeSet p args => exact .of_next rfl (request_pending (timeSet_pending p args s))
  | identify p args => exact .of_read rfl (identify_state p args s)
  | portStatus p args => exact .of_read rfl (portStatus_state p args s)
  | timeRead p args => exact .of_read rfl (timeRead_state args s)
  | timeReadScaled p args => exact .of_read rfl (timeReadScaled_state args s)
  | entryQuery p args => exact .of_read rfl (entryQuery_state p args s)
  | scheduleList p args => exact .of_read rfl (scheduleList_state p args s)
  | pinRead p args => exact .of_read rfl (pinRead_state args s)
  | vectorRead p args => exact .of_read rfl (vectorRead_state p args s)
  | faultRead p args => exact .of_read rfl (faultRead_state args s)
  | settingsRead p args => exact .of_read rfl (settingsRead_state args s)
  | scheduleAt p args => exact .of_fire rfl (scheduleAt_fireOnly p args s)
  | cancel p args => exact .of_fire rfl (cancel_fireOnly p args s)
  | pinRelease p args => exact .of_fire rfl (pinRelease_fireOnly p args s)
  | leaseSet p args => exact .of_core rfl (leaseSet_sameCore p args s)
  | leaseRenew p args => exact .of_core rfl (leaseRenew_sameCore p args s)
  | refConfigure p args => exact .of_core rfl (refConfigure_sameCore p args s)
  | disciplineProfile p args => exact .of_core rfl (disciplineProfile_sameCore p args s)
  | disciplineStatus p args => exact .of_core rfl (disciplineStatus_sameCore p args s)
  | scheduleOnEdge p args => exact .of_core rfl (scheduleOnEdge_sameCore p args s)
  | hold p args => exact .of_core rfl (hold_sameCore p args s)
  | resume p args => exact .of_core rfl (resume_sameCore p args s)
  | scheduleConfigure p args => exact .of_core rfl (scheduleConfigure_sameCore p args s)
  | pinConfigure p args level => exact .of_core rfl (pinConfigure_sameCore p args level s)
  | pinClaim p args => exact .of_core rfl (pinClaim_sameCore p args s)
  | pinWrite p args => exact .of_core rfl (pinWrite_sameCore p args s)
  | subscribe p args => exact .of_core rfl (subscribe_sameCore p args s)
  | eventRead p args => exact .of_core rfl (eventRead_sameCore p args s)
  | ringConfigure p args => exact .of_core rfl (ringConfigure_sameCore p args s)
  | vectorConfigure p args => exact .of_core rfl (vectorConfigure_sameCore p args s)
  | vectorAck p args => exact .of_core rfl (vectorAck_sameCore p args s)
  | notifyControl p args => exact .of_core rfl (notifyControl_sameCore p args s)
  | faultClear p args => exact .of_core rfl (faultClear_sameCore p args s)
  | faultConfigure p args => exact .of_core rfl (faultConfigure_sameCore p args s)
  | faultRecordClear p args => exact .of_core rfl (faultRecordClear_sameCore p args s)
  | settingsClaim p args => exact .of_core rfl (settingsClaim_sameCore p args s)
  | settingsRelease p args => exact .of_core rfl (settingsRelease_sameCore p args s)
  | portLimitsSet p args => exact .of_core rfl (portLimitsSet_sameCore p args s)
  | storeWrite p args => exact .of_core rfl (writeStore_sameCore p args _ s)
  | storeFreeze p args => exact .of_core rfl (writeStore_sameCore p args _ s)

/-- Settles O2: `exec_keepsQueue` for each command. -/
theorem everyCommandAnswersAndKeepsTheQueue : Obligations.EveryCommandAnswersAndKeepsTheQueue := exec_keepsQueue

end Sys2Proof.Machine
end
